-- ==== Sys2Proof/Word.lean ====
section
/-! DEFINITION. The word types of JU-CSC: register words, memory bytes, memory addresses and register-bus addresses. -/

namespace Sys2Proof

/-- One byte of the memory space (20_memory R60), one 8-bit sample (R64). -/
abbrev Byte := BitVec 8

/-- A register or a command word (10_state R23, 30_encoding R100). -/
abbrev Word := BitVec 32

/-- A 64-bit memory address as a register pair holds it (10_state R32). -/
abbrev Addr := BitVec 64

/-- An address of the bus the register block is a slave of (10_state R23). The spec gives it no width. DESIGN CHOICE:
64 bits (log 25). -/
abbrev BusAddr := BitVec 64

end Sys2Proof
end

