-- ==== Sys2Proof/Syntax.lean ====
section
/-! DEFINITION. The names of the layouts and sample types, the operations of the opcode table (`Instr`, one
constructor per row), what an operation is made of, and the names under which a decoder rejects a word. -/

namespace Sys2Proof

/-- The 4:2:0 layouts (20_memory R70 to R72). -/
inductive Sub420 where
  | i420
  | yv12
  | nv12
deriving DecidableEq, Repr

/-- The packed 4:2:2 layouts (20_memory R74 to R77). -/
inductive Packed422 where
  | yuyv
  | yvyu
  | uyvy
deriving DecidableEq, Repr

/-- The six Pixel Format Tags (30_encoding R101), by family. -/
inductive YuvLayout where
  | sub420 (l : Sub420)
  | packed (l : Packed422)
deriving DecidableEq, Repr

/-- The four RGB sample types (30_encoding R102). -/
inductive RgbType where
  | rgb8
  | rgbf
  | rgba8
  | rgbaf
deriving DecidableEq, Repr

/-- The operations, one constructor per row of spec/opcode_table.json (30_encoding R110). The command word holds no
operand but the embed operation's FLIP bit (R104). -/
inductive Instr where
  /-- `I420_TO_RGB8` (41_yuv_to_rgb R210). -/
  | i420ToRgb8
  /-- `I420_TO_RGBF` (41_yuv_to_rgb R211). -/
  | i420ToRgbf
  /-- `I420_TO_RGBA8` (41_yuv_to_rgb R212). -/
  | i420ToRgba8
  /-- `I420_TO_RGBAF` (41_yuv_to_rgb R213). -/
  | i420ToRgbaf
  /-- `YV12_TO_RGB8` (41_yuv_to_rgb R214). -/
  | yv12ToRgb8
  /-- `YV12_TO_RGBF` (41_yuv_to_rgb R215). -/
  | yv12ToRgbf
  /-- `YV12_TO_RGBA8` (41_yuv_to_rgb R216). -/
  | yv12ToRgba8
  /-- `YV12_TO_RGBAF` (41_yuv_to_rgb R217). -/
  | yv12ToRgbaf
  /-- `NV12_TO_RGB8` (41_yuv_to_rgb R218). -/
  | nv12ToRgb8
  /-- `NV12_TO_RGBF` (41_yuv_to_rgb R219). -/
  | nv12ToRgbf
  /-- `NV12_TO_RGBA8` (41_yuv_to_rgb R220). -/
  | nv12ToRgba8
  /-- `NV12_TO_RGBAF` (41_yuv_to_rgb R221). -/
  | nv12ToRgbaf
  /-- `YUYV_TO_RGB8` (41_yuv_to_rgb R222). -/
  | yuyvToRgb8
  /-- `YUYV_TO_RGBF` (41_yuv_to_rgb R223). -/
  | yuyvToRgbf
  /-- `YUYV_TO_RGBA8` (41_yuv_to_rgb R224). -/
  | yuyvToRgba8
  /-- `YUYV_TO_RGBAF` (41_yuv_to_rgb R225). -/
  | yuyvToRgbaf
  /-- `YVYU_TO_RGB8` (41_yuv_to_rgb R226). -/
  | yvyuToRgb8
  /-- `YVYU_TO_RGBF` (41_yuv_to_rgb R227). -/
  | yvyuToRgbf
  /-- `YVYU_TO_RGBA8` (41_yuv_to_rgb R228). -/
  | yvyuToRgba8
  /-- `YVYU_TO_RGBAF` (41_yuv_to_rgb R229). -/
  | yvyuToRgbaf
  /-- `UYVY_TO_RGB8` (41_yuv_to_rgb R230). -/
  | uyvyToRgb8
  /-- `UYVY_TO_RGBF` (41_yuv_to_rgb R231). -/
  | uyvyToRgbf
  /-- `UYVY_TO_RGBA8` (41_yuv_to_rgb R232). -/
  | uyvyToRgba8
  /-- `UYVY_TO_RGBAF` (41_yuv_to_rgb R233). -/
  | uyvyToRgbaf
  /-- `RGB8_TO_I420` (42_rgb_to_yuv R250). -/
  | rgb8ToI420
  /-- `RGBF_TO_I420` (42_rgb_to_yuv R251). -/
  | rgbfToI420
  /-- `RGBA8_TO_I420` (42_rgb_to_yuv R252). -/
  | rgba8ToI420
  /-- `RGBAF_TO_I420` (42_rgb_to_yuv R253). -/
  | rgbafToI420
  /-- `RGB8_TO_YV12` (42_rgb_to_yuv R254). -/
  | rgb8ToYv12
  /-- `RGBF_TO_YV12` (42_rgb_to_yuv R255). -/
  | rgbfToYv12
  /-- `RGBA8_TO_YV12` (42_rgb_to_yuv R256). -/
  | rgba8ToYv12
  /-- `RGBAF_TO_YV12` (42_rgb_to_yuv R257). -/
  | rgbafToYv12
  /-- `RGB8_TO_NV12` (42_rgb_to_yuv R258). -/
  | rgb8ToNv12
  /-- `RGBF_TO_NV12` (42_rgb_to_yuv R259). -/
  | rgbfToNv12
  /-- `RGBA8_TO_NV12` (42_rgb_to_yuv R260). -/
  | rgba8ToNv12
  /-- `RGBAF_TO_NV12` (42_rgb_to_yuv R261). -/
  | rgbafToNv12
  /-- `RGB8_TO_I420_EMBED`, with the suffix `.FLIP` when `flip` (43_data_channel R285). -/
  | rgb8ToI420Embed (flip : Bool)
  /-- `NV12_TO_RGBA8_EXTRACT` (43_data_channel R290). -/
  | nv12ToRgba8Extract
deriving DecidableEq, Repr

/-- What an operation converts: direction, layout, RGB sample type, and the data-channel variants with the sample
type their parameter gives them (00_scope R2, R5). -/
inductive Operation where
  | yuvToRgb (l : YuvLayout) (t : RgbType)
  | rgbToYuv (t : RgbType) (l : Sub420)
  | embed (t : RgbType) (flip : Bool)
  | extract (t : RgbType)
deriving DecidableEq, Repr

/-- Why a command word names no operation (30_encoding R112). Each makes the operation complete with UNSUPPORTED
(40_transform R132). -/
inductive DecodeReject where
  /-- One of bits [31:8] is set. -/
  | reservedBits
  /-- YFMT is 6 or 7. -/
  | reservedYfmt
  /-- FLIP = 1 in a word other than the embed word. -/
  | flipOutsideEmbed
  /-- DIR = 1 with a packed 4:2:2 layout (42_rgb_to_yuv R242). -/
  | packedDestination
  /-- AUX = 1 with a layout, sample type or direction that neither data-channel operation has. -/
  | auxCombination
deriving DecidableEq, Repr

end Sys2Proof
end

