-- ==== Sys2Proof/Config.lean ====
section
/-! DEFINITION. The implementation parameters of 00_scope R5 and the free values of the spec. -/

namespace Sys2Proof

/-- FLOAT_SCALE, the value of full-scale intensity in a float channel: 1 or 255 (00_scope R5). -/
inductive FloatScale where
  | one
  | full255
deriving DecidableEq, Repr

/-- CAP_POLICY (00_scope R5, 43_data_channel R280 and R281). -/
inductive CapPolicy where
  | fail
  | truncate
deriving DecidableEq, Repr

/-- The coefficients of the decode matrix `Mdec` in the form of 40_transform R150. -/
structure DecodeMatrix where
  kRV : ℚ
  kGU : ℚ
  kGV : ℚ
  kBU : ℚ
deriving DecidableEq, Repr

/-- The coefficients of the encode matrix `Menc` in the form of 40_transform R151: row (Y, U, V), column (r, g, b). -/
structure EncodeMatrix where
  yR : ℚ
  yG : ℚ
  yB : ℚ
  uR : ℚ
  uG : ℚ
  uB : ℚ
  vR : ℚ
  vG : ℚ
  vB : ℚ
deriving DecidableEq, Repr

/-- A run of bytes `[base, base + size)` of the memory space. -/
structure Region where
  base : Nat
  size : Nat
deriving DecidableEq, Repr

/-- The implementation parameters of 00_scope R5. They are fixed for a machine; State carries them so that a statement
about every state holds for every choice of them (log 2). -/
structure Config where
  /-- ADDR_W. -/
  addrW : Nat
  /-- BASE, the bus address of the register block. DESIGN CHOICES: its width of 64 bits, which R5 and 10_state R23 do not
  give (log 25), and a register bus apart from the memory space, which 20_memory R60 leaves to the platform (log 26). -/
  base : BusAddr
  floatScale : FloatScale
  /-- MATRIX, decode part. -/
  mdec : DecodeMatrix
  /-- MATRIX, encode part. -/
  menc : EncodeMatrix
  /-- SUPPORTED, as the operations whose words execute: a subset of 30_encoding R110's set by construction (log 23). -/
  supported : List Instr
  embedType : RgbType
  extractType : RgbType
  /-- RED, U samples per embedded bit. -/
  red : Nat
  /-- SHIFT, the right shift of the natural U sample for a 0-bit. -/
  shift : Nat
  /-- ONE_LEVEL, the U value of a 1-bit. -/
  oneLevel : Byte
  /-- THRESH: a U sample at or above it votes 1. -/
  thresh : Nat
  capPolicy : CapPolicy
  /-- COHERENT: core accesses are coherent with the host's cache. -/
  coherent : Bool
  /-- The platform's addresses whose reads have side effects (20_memory R66; log 13). -/
  sideEffects : List Region
deriving DecidableEq, Repr

/-- The default `Mdec`: BT.601 full range (40_transform R150). -/
def bt601Decode : DecodeMatrix :=
  { kRV := 1402 / 1000, kGU := 344136 / 1000000, kGV := 714136 / 1000000, kBU := 1772 / 1000 }

/-- The default `Menc`: BT.601 full range (40_transform R151). -/
def bt601Encode : EncodeMatrix :=
  { yR := 299 / 1000, yG := 587 / 1000, yB := 114 / 1000
    uR := -168736 / 1000000, uG := -331264 / 1000000, uB := 5 / 10
    vR := 5 / 10, vG := -418688 / 1000000, vB := -81312 / 1000000 }

/-- The operations of 30_encoding R110, the embed operation with both values of its FLIP bit. -/
def allInstrs : List Instr :=
  [ .i420ToRgb8, .i420ToRgbf, .i420ToRgba8, .i420ToRgbaf,
    .yv12ToRgb8, .yv12ToRgbf, .yv12ToRgba8, .yv12ToRgbaf,
    .nv12ToRgb8, .nv12ToRgbf, .nv12ToRgba8, .nv12ToRgbaf,
    .yuyvToRgb8, .yuyvToRgbf, .yuyvToRgba8, .yuyvToRgbaf,
    .yvyuToRgb8, .yvyuToRgbf, .yvyuToRgba8, .yvyuToRgbaf,
    .uyvyToRgb8, .uyvyToRgbf, .uyvyToRgba8, .uyvyToRgbaf,
    .rgb8ToI420, .rgbfToI420, .rgba8ToI420, .rgbafToI420,
    .rgb8ToYv12, .rgbfToYv12, .rgba8ToYv12, .rgbafToYv12,
    .rgb8ToNv12, .rgbfToNv12, .rgba8ToNv12, .rgbafToNv12,
    .rgb8ToI420Embed false, .rgb8ToI420Embed true, .nv12ToRgba8Extract ]

/-- The defaults of 00_scope R5. BASE and COHERENT are OPEN there: 0 and true are the model's (log 2), and no statement
rests on them. -/
def Config.default : Config :=
  { addrW := 64, base := 0, floatScale := .full255, mdec := bt601Decode, menc := bt601Encode, supported := allInstrs
    embedType := .rgb8, extractType := .rgba8, red := 8, shift := 2, oneLevel := 255, thresh := 128
    capPolicy := .fail, coherent := true, sideEffects := [] }

/-- "Any value": the byte that the `draw`-th free choice puts at an address (20_memory R93, R94; 40_transform R136,
R158; 70_reset_and_hazards R331; 10_state R43). It has no body, so nothing constrains it (log 5). -/
opaque Config.freeByte : (draw : Nat) → (addr : Nat) → Byte

end Sys2Proof
end

