-- ==== Sys2Proof/WellFormed.lean ====
section
/-! DEFINITION. Which parameter choices 00_scope R5 allows, and which operations are well-formed under them. -/

namespace Sys2Proof

/-- `ADDR_W`: 32 ≤ ADDR_W ≤ 64 (00_scope R5). -/
def Config.addrWOk (c : Config) : Bool := decide (32 ≤ c.addrW ∧ c.addrW ≤ 64)

/-- `BASE` is 256-byte aligned (00_scope R5). -/
def Config.baseOk (c : Config) : Bool := decide (c.base.toNat % 256 = 0)

/-- `RED` ≥ 1 (00_scope R5). -/
def Config.redOk (c : Config) : Bool := decide (1 ≤ c.red)

/-- 0 ≤ `SHIFT` ≤ 8 (00_scope R5). -/
def Config.shiftOk (c : Config) : Bool := decide (c.shift ≤ 8)

/-- (255 >> SHIFT) < `THRESH` ≤ ONE_LEVEL (00_scope R5). -/
def Config.threshOk (c : Config) : Bool := decide (255 >>> c.shift < c.thresh ∧ c.thresh ≤ c.oneLevel.toNat)

/-- Every constraint of 00_scope R5. FLOAT_SCALE, SUPPORTED, the sample types, ONE_LEVEL's range and CAP_POLICY hold
theirs by their types. -/
def Config.wellFormed (c : Config) : Bool :=
  c.addrWOk && c.baseOk && c.redOk && c.shiftOk && c.threshOk

/-- An operation is well-formed under a configuration when its command word executes there (30_encoding R111). -/
def Instr.wellFormed (c : Config) (i : Instr) : Bool := decide (i ∈ c.supported)

end Sys2Proof
end

