-- ==== Sys2Proof/Decode.lean ====
section
/-! DEFINITION. The decoder of command words (30_encoding R100 to R103, R110 to R112), total on 32-bit words, rejecting
by name, and the encoder written from the table of R110. -/

namespace Sys2Proof

/-- YFMT = cmd[2:0] (30_encoding R100). -/
def fieldYfmt (w : Word) : BitVec 3 := w.extractLsb' 0 3

/-- RGBT = cmd[4:3] (30_encoding R100). -/
def fieldRgbt (w : Word) : BitVec 2 := w.extractLsb' 3 2

/-- DIR = cmd[5]: false is YUV to RGB (30_encoding R100). -/
def fieldDir (w : Word) : Bool := w.getLsbD 5

/-- AUX = cmd[6]: a data-channel operation (30_encoding R100). -/
def fieldAux (w : Word) : Bool := w.getLsbD 6

/-- FLIP = cmd[7] (30_encoding R100). -/
def fieldFlip (w : Word) : Bool := w.getLsbD 7

/-- Bits [31:8], reserved (30_encoding R100). -/
def fieldReserved (w : Word) : BitVec 24 := w.extractLsb' 8 24

/-- The layout a YFMT code names, none for the reserved codes 6 and 7 (30_encoding R101). -/
def layoutOfCode (code : BitVec 3) : Option YuvLayout :=
  match code.toNat with
  | 0 => some (.sub420 .i420)
  | 1 => some (.sub420 .yv12)
  | 2 => some (.sub420 .nv12)
  | 3 => some (.packed .yuyv)
  | 4 => some (.packed .yvyu)
  | 5 => some (.packed .uyvy)
  | _ => none

/-- The sample type an RGBT code names (30_encoding R102). -/
def rgbTypeOfCode (code : BitVec 2) : RgbType :=
  match code.toNat with
  | 0 => .rgb8
  | 1 => .rgbf
  | 2 => .rgba8
  | _ => .rgbaf

/-- The RGBT code of a sample type (30_encoding R102). -/
def RgbType.code (t : RgbType) : Word :=
  match t with
  | .rgb8 => 0
  | .rgbf => 1
  | .rgba8 => 2
  | .rgbaf => 3

/-- The YUV to RGB operation of a layout and a sample type (30_encoding R110). -/
def yuvToRgbInstr (l : YuvLayout) (t : RgbType) : Instr :=
  match l, t with
  | .sub420 .i420, .rgb8 => .i420ToRgb8
  | .sub420 .i420, .rgbf => .i420ToRgbf
  | .sub420 .i420, .rgba8 => .i420ToRgba8
  | .sub420 .i420, .rgbaf => .i420ToRgbaf
  | .sub420 .yv12, .rgb8 => .yv12ToRgb8
  | .sub420 .yv12, .rgbf => .yv12ToRgbf
  | .sub420 .yv12, .rgba8 => .yv12ToRgba8
  | .sub420 .yv12, .rgbaf => .yv12ToRgbaf
  | .sub420 .nv12, .rgb8 => .nv12ToRgb8
  | .sub420 .nv12, .rgbf => .nv12ToRgbf
  | .sub420 .nv12, .rgba8 => .nv12ToRgba8
  | .sub420 .nv12, .rgbaf => .nv12ToRgbaf
  | .packed .yuyv, .rgb8 => .yuyvToRgb8
  | .packed .yuyv, .rgbf => .yuyvToRgbf
  | .packed .yuyv, .rgba8 => .yuyvToRgba8
  | .packed .yuyv, .rgbaf => .yuyvToRgbaf
  | .packed .yvyu, .rgb8 => .yvyuToRgb8
  | .packed .yvyu, .rgbf => .yvyuToRgbf
  | .packed .yvyu, .rgba8 => .yvyuToRgba8
  | .packed .yvyu, .rgbaf => .yvyuToRgbaf
  | .packed .uyvy, .rgb8 => .uyvyToRgb8
  | .packed .uyvy, .rgbf => .uyvyToRgbf
  | .packed .uyvy, .rgba8 => .uyvyToRgba8
  | .packed .uyvy, .rgbaf => .uyvyToRgbaf

/-- The RGB to YUV operation of a sample type and a 4:2:0 layout (30_encoding R110). -/
def rgbToYuvInstr (t : RgbType) (l : Sub420) : Instr :=
  match t, l with
  | .rgb8, .i420 => .rgb8ToI420
  | .rgbf, .i420 => .rgbfToI420
  | .rgba8, .i420 => .rgba8ToI420
  | .rgbaf, .i420 => .rgbafToI420
  | .rgb8, .yv12 => .rgb8ToYv12
  | .rgbf, .yv12 => .rgbfToYv12
  | .rgba8, .yv12 => .rgba8ToYv12
  | .rgbaf, .yv12 => .rgbafToYv12
  | .rgb8, .nv12 => .rgb8ToNv12
  | .rgbf, .nv12 => .rgbfToNv12
  | .rgba8, .nv12 => .rgba8ToNv12
  | .rgbaf, .nv12 => .rgbafToNv12

/-- The operation a command word names (30_encoding R110), or the name of the reason it names none (R112). The sample
types of the data-channel words are the parameters EMBED_TYPE and EXTRACT_TYPE. Whether the operation is in SUPPORTED
is judged when it runs (40_transform R132). -/
def decode (c : Config) (w : Word) : Except DecodeReject Instr :=
  if fieldReserved w ≠ 0 then .error .reservedBits
  else
    match layoutOfCode (fieldYfmt w) with
    | none => .error .reservedYfmt
    | some l =>
      match fieldAux w, fieldDir w, fieldFlip w with
      | false, false, false => .ok (yuvToRgbInstr l (rgbTypeOfCode (fieldRgbt w)))
      | false, true, false =>
        match l with
        | .sub420 p => .ok (rgbToYuvInstr (rgbTypeOfCode (fieldRgbt w)) p)
        | .packed _ => .error .packedDestination
      | false, _, true => .error .flipOutsideEmbed
      | true, true, f =>
        if l = .sub420 .i420 ∧ rgbTypeOfCode (fieldRgbt w) = c.embedType then .ok (.rgb8ToI420Embed f)
        else .error .auxCombination
      | true, false, false =>
        if l = .sub420 .nv12 ∧ rgbTypeOfCode (fieldRgbt w) = c.extractType then .ok .nv12ToRgba8Extract
        else .error .auxCombination
      | true, false, true => .error .flipOutsideEmbed

/-- The command word of an operation, row by row from the table of 30_encoding R110. The data-channel rows move with
EMBED_TYPE and EXTRACT_TYPE, to `0x60 | RGBT << 3` and `0x42 | RGBT << 3`. -/
def encode (c : Config) (i : Instr) : Word :=
  match i with
  | .i420ToRgb8 => 0x00000000
  | .i420ToRgbf => 0x00000008
  | .i420ToRgba8 => 0x00000010
  | .i420ToRgbaf => 0x00000018
  | .yv12ToRgb8 => 0x00000001
  | .yv12ToRgbf => 0x00000009
  | .yv12ToRgba8 => 0x00000011
  | .yv12ToRgbaf => 0x00000019
  | .nv12ToRgb8 => 0x00000002
  | .nv12ToRgbf => 0x0000000A
  | .nv12ToRgba8 => 0x00000012
  | .nv12ToRgbaf => 0x0000001A
  | .yuyvToRgb8 => 0x00000003
  | .yuyvToRgbf => 0x0000000B
  | .yuyvToRgba8 => 0x00000013
  | .yuyvToRgbaf => 0x0000001B
  | .yvyuToRgb8 => 0x00000004
  | .yvyuToRgbf => 0x0000000C
  | .yvyuToRgba8 => 0x00000014
  | .yvyuToRgbaf => 0x0000001C
  | .uyvyToRgb8 => 0x00000005
  | .uyvyToRgbf => 0x0000000D
  | .uyvyToRgba8 => 0x00000015
  | .uyvyToRgbaf => 0x0000001D
  | .rgb8ToI420 => 0x00000020
  | .rgbfToI420 => 0x00000028
  | .rgba8ToI420 => 0x00000030
  | .rgbafToI420 => 0x00000038
  | .rgb8ToYv12 => 0x00000021
  | .rgbfToYv12 => 0x00000029
  | .rgba8ToYv12 => 0x00000031
  | .rgbafToYv12 => 0x00000039
  | .rgb8ToNv12 => 0x00000022
  | .rgbfToNv12 => 0x0000002A
  | .rgba8ToNv12 => 0x00000032
  | .rgbafToNv12 => 0x0000003A
  | .rgb8ToI420Embed false => 0x00000060 ||| (c.embedType.code <<< 3)
  | .rgb8ToI420Embed true => 0x000000E0 ||| (c.embedType.code <<< 3)
  | .nv12ToRgba8Extract => 0x00000042 ||| (c.extractType.code <<< 3)

/-- The instruction the decoder reads from the `nbits` low bits `w` of a command word, under the default parameters.
The word is a register's contents (10_state R29), so it has no byte order. -/
def decodeTableWord (nbits w : Nat) : Option Instr :=
  match decode Config.default (BitVec.ofNat 32 (w % 2 ^ nbits)) with
  | .ok i => some i
  | .error _ => none

end Sys2Proof
end

