-- ==== Sys2Proof/Machine/State.lean ====
section
/-! DEFINITION. The state of JU-CSC as plain data: the registers of 10_state R23, the internal state of R40 and R41, the
memory space of 20_memory R60, and what the outside world still does to the machine. Reset values are R45's. -/

namespace Sys2Proof.Machine

/-- Why a step stops with a fault. -/
inductive Fault where
  /-- Raised by a store or load, by the host or another agent, at an address at or above 2^ADDR_W, which 20_memory R60 says does not exist. The
  core's own accesses never raise it (R63). Safe: nothing is claimed of what follows. -/
  | noSuchAddress
deriving DecidableEq, Repr

/-- Why a step gives no meaning. -/
inductive Refusal where
  /-- Raised by an arm of `exec` whose instruction has no meaning yet. Safe. No arm raises it now. -/
  | notModelled (mnemonic : String)
  /-- Raised by a bus access that touches the register block, or a POLL, and is not a naturally aligned 32-bit access to it:
  "a model refuses it" (10_state R24). Safe. -/
  | misfitRegisterAccess
  /-- Raised by an operation one of whose buffers lies on addresses with read side effects: "a model refuses it"
  (20_memory R66). Safe. -/
  | sideEffectBuffer
deriving DecidableEq, Repr

/-- The status codes (60_exceptions R300). The values 5, 6 and 7 are never written, and no constructor has them. -/
inductive StatusCode where
  | success
  | invalidArgument
  | unsupported
  | capacityExceeded
  | deviceFailure
deriving DecidableEq, Repr

/-- The sequencing state, equal to STATUS.BUSY (10_state R40). -/
inductive Phase where
  | idle
  | busy
deriving DecidableEq, Repr

/-- The thirteen registers of the register block (10_state R23). -/
inductive Reg where
  | ctrl
  | status
  | cmd
  | width
  | height
  | auxLen
  | srcLo
  | srcHi
  | dstLo
  | dstHi
  | auxLo
  | auxHi
  | auxCount
deriving DecidableEq, Repr

/-- The context latched at START (10_state R41). -/
structure Ctx where
  cmd : Word
  w : Word
  h : Word
  auxlen : Word
  src : Addr
  dst : Addr
  aux : Addr
deriving DecidableEq, Repr

/-- One byte the host's cache holds (70_reset_and_hazards R345): `dirty` when the host stored it and the store has not
been performed in the memory space. -/
structure CacheLine where
  addr : Nat
  byte : Byte
  dirty : Bool
deriving DecidableEq, Repr

/-- The memory space as a sparse list in one canonical form (`Memory.wf`). -/
abbrev Memory := List Host.Cell

/-- One thing that happens to the core: an act of the host or the platform, or the core's turn. -/
inductive Input where
  /-- The core takes its turn: it runs the latched operation to completion if it is BUSY (40_transform R131). -/
  | core
  /-- The platform asserts reset (70_reset_and_hazards R330). -/
  | reset
  /-- The running operation will complete with DEVICE_FAILURE if it passes its checks (40_transform R135). -/
  | deviceFault
  /-- A bus read of `bytes` bytes (10_state R24; `R32` of 30_encoding R120). -/
  | busRead (addr : BusAddr) (bytes : Nat)
  /-- A bus write of `bytes` bytes (10_state R24; `W32` of 30_encoding R120). -/
  | busWrite (addr : BusAddr) (bytes : Nat) (value : Word)
  /-- `POLL`: repeat the 32-bit read until (read & mask) == value (30_encoding R120). -/
  | poll (addr : BusAddr) (mask : Word) (value : Word)
  /-- A store by the host of bytes from `addr` up in the memory space (`MEM` of 30_encoding R120, 20_memory R93). It does
  not reach the register block (log 26). -/
  | store (addr : Addr) (bytes : List Byte)
  /-- A host load of one byte of the memory space (20_memory R90, 70_reset_and_hazards R340; log 26). -/
  | load (addr : Addr)
  /-- A store of bytes from `addr` up in the memory space by an agent that the host's cache does not serve, such as another
  instance of JU-CSC (20_memory R93, R95, 60_exceptions R319; log 24). -/
  | agentStore (addr : Addr) (bytes : List Byte)
  /-- A load of one byte of the memory space by such an agent (20_memory R90, R91). -/
  | agentLoad (addr : Addr)
  /-- The host writes back its cached stores to a region (70_reset_and_hazards R345). -/
  | writeBack (region : Region)
  /-- The host discards its cached copies of a region (70_reset_and_hazards R345). -/
  | discard (region : Region)
deriving DecidableEq, Repr

/-- The machine's state. -/
structure State where
  /-- The implementation parameters (00_scope R5), which no step writes. -/
  cfg : Config
  /-- CTRL.IRQ_EN (10_state R25). -/
  irqEn : Bool
  /-- STATUS.BUSY (10_state R27, R40). -/
  phase : Phase
  /-- STATUS.DONE (10_state R27). -/
  done : Bool
  /-- STATUS.CODE (10_state R27). -/
  code : StatusCode
  /-- CMD (10_state R29). -/
  cmd : Word
  /-- WIDTH (10_state R30). -/
  width : Word
  /-- HEIGHT (10_state R30). -/
  height : Word
  /-- AUX_LEN (10_state R31). -/
  auxLen : Word
  /-- SRC_LO (10_state R32). -/
  srcLo : Word
  /-- SRC_HI (10_state R32). -/
  srcHi : Word
  /-- DST_LO (10_state R32). -/
  dstLo : Word
  /-- DST_HI (10_state R32). -/
  dstHi : Word
  /-- AUX_LO (10_state R32). -/
  auxLo : Word
  /-- AUX_HI (10_state R32). -/
  auxHi : Word
  /-- AUX_COUNT (10_state R33). -/
  auxCount : Word
  /-- The latched context (10_state R41). -/
  ctx : Ctx
  /-- The memory space (20_memory R60). -/
  mem : Memory
  /-- The addresses other agents stored to since START (20_memory R93, 70_reset_and_hazards R341; log 16). -/
  touched : List Nat
  /-- A device failure the platform has raised against the running operation (40_transform R135; log 6). -/
  deviceFault : Bool
  /-- The host's cache, used when COHERENT is false (70_reset_and_hazards R345; log 14). -/
  hostCache : List CacheLine
  /-- What the last register read returned (log 19). -/
  rdata : Word
  /-- What the last load by the host or another agent returned (log 19). -/
  hdata : Byte
  /-- How many free values have been drawn (log 5). -/
  draws : Nat
  /-- What happens next, in order (log 3). -/
  inputs : List Input
deriving DecidableEq, Repr

/-- The context after reset: "unspecified, never read while IDLE" (10_state R45). DESIGN CHOICE: zeros (log 7, which also says
what it holds while IDLE after a completion). -/
def Ctx.zero : Ctx := { cmd := 0, w := 0, h := 0, auxlen := 0, src := 0, dst := 0, aux := 0 }

/-- The machine right after reset (10_state R45), for any parameters, with nothing in memory. -/
def State.resetWith (c : Config) : State :=
  { cfg := c, irqEn := false, phase := .idle, done := false, code := .success
    cmd := 0, width := 0, height := 0, auxLen := 0
    srcLo := 0, srcHi := 0, dstLo := 0, dstHi := 0, auxLo := 0, auxHi := 0, auxCount := 0
    ctx := Ctx.zero, mem := [], touched := [], deviceFault := false, hostCache := []
    rdata := 0, hdata := 0, draws := 0, inputs := [] }

/-- The machine right after reset, with the default parameters. -/
def State.reset : State := State.resetWith Config.default

end Sys2Proof.Machine
end

