-- ==== Sys2Proof/Machine/Flags.lean ====
section
/-! DEFINITION. JU-CSC has no condition flags (10_state R22). Its status bits as a register read sees them, and the
interrupt output. -/

namespace Sys2Proof.Machine

/-- The number of a status code (60_exceptions R300). -/
def StatusCode.number (k : StatusCode) : BitVec 3 :=
  match k with
  | .success => 0
  | .invalidArgument => 1
  | .unsupported => 2
  | .capacityExceeded => 3
  | .deviceFailure => 4

/-- A bit as a 32-bit word, in bit 0. -/
def bitWord (b : Bool) : Word := if b then 1 else 0

/-- STATUS as a read returns it: BUSY in bit 0, DONE in bit 1, CODE in bits 6:4, 0 elsewhere (10_state R27). -/
def statusWord (s : State) : Word :=
  bitWord (decide (s.phase = .busy)) ||| (bitWord s.done <<< 1) ||| ((StatusCode.number s.code).setWidth 32 <<< 4)

/-- CTRL as a read returns it: IRQ_EN in bit 1, 0 elsewhere (10_state R26). -/
def ctrlWord (s : State) : Word := bitWord s.irqEn <<< 1

/-- The interrupt output: `STATUS.DONE AND CTRL.IRQ_EN` (10_state R42, 60_exceptions R310). -/
def irq (s : State) : Bool := s.done && s.irqEn

end Sys2Proof.Machine
end

