-- ==== Sys2Proof/Machine/Layout.lean ====
section
/-! DEFINITION. Memory reads and writes over the canonical list, the frame geometry and the layout adapters
(20_memory R60 to R80). -/

namespace Sys2Proof.Machine

/-- What an address that nothing has written reads as: 0. DESIGN CHOICE (log 1): the spec gives no contents. -/
def Memory.unlisted : Byte := 0

/-- The byte at an address. -/
def Memory.read (m : Memory) (a : Nat) : Byte :=
  match m with
  | [] => Memory.unlisted
  | (k, b) :: rest => if k = a then b else Memory.read rest a

/-- `m` without its entry for `a`, if it has one. -/
def Memory.erase (m : Memory) (a : Nat) : Memory :=
  match m with
  | [] => []
  | (k, b) :: rest => if k = a then rest else (k, b) :: Memory.erase rest a

/-- `m` with the entry `(a, v)` put in its place. -/
def Memory.insert (m : Memory) (a : Nat) (v : Byte) : Memory :=
  match m with
  | [] => [(a, v)]
  | (k, b) :: rest =>
    if a < k then (a, v) :: (k, b) :: rest
    else if a = k then (a, v) :: rest
    else (k, b) :: Memory.insert rest a v

/-- One byte write. Writing what an unlisted address reads as removes the entry. -/
def Memory.write (m : Memory) (a : Nat) (v : Byte) : Memory :=
  if v = Memory.unlisted then Memory.erase m a else Memory.insert m a v

/-- Byte writes, in list order. -/
def Memory.writeAll (m : Memory) (cells : List Host.Cell) : Memory :=
  match cells with
  | [] => m
  | (a, v) :: rest => Memory.writeAll (Memory.write m a v) rest

/-- Addresses strictly rising, each above `lo`, and no entry equal to what an unlisted address reads as. -/
def Memory.wfFrom (lo : Nat) (m : Memory) : Bool :=
  match m with
  | [] => true
  | (k, b) :: rest => decide (lo ≤ k) && decide (b ≠ Memory.unlisted) && Memory.wfFrom (k + 1) rest

/-- The canonical form: addresses strictly rising, no entry equal to what an unlisted address reads as. -/
def Memory.wf (m : Memory) : Bool := Memory.wfFrom 0 m

/-- `MemRead(a, 4)`: four bytes, the least significant at the lowest address (00_scope R9, 20_memory R64). -/
def Memory.read32 (m : Memory) (a : Nat) : Word :=
  m.read (a + 3) ++ m.read (a + 2) ++ m.read (a + 1) ++ m.read a

/-- `MemWrite(a, 4, v)` as byte writes (00_scope R9, 20_memory R64). -/
def cells32 (a : Nat) (v : Word) : List Host.Cell :=
  [ (a, v.extractLsb' 0 8), (a + 1, v.extractLsb' 8 8), (a + 2, v.extractLsb' 16 8), (a + 3, v.extractLsb' 24 8) ]

/-- Frame width in pixels (20_memory R68). -/
def Ctx.W (x : Ctx) : Nat := x.w.toNat

/-- Frame height in pixels (20_memory R68). -/
def Ctx.H (x : Ctx) : Nat := x.h.toNat

/-- CW = W // 2 (20_memory R68). -/
def Ctx.CW (x : Ctx) : Nat := x.W / 2

/-- CH = H // 2 (20_memory R68). -/
def Ctx.CH (x : Ctx) : Nat := x.H / 2

/-- NY = W * H luma samples (20_memory R68). -/
def Ctx.NY (x : Ctx) : Nat := x.W * x.H

/-- NC = CW * CH samples in each 4:2:0 chroma plane (20_memory R68). -/
def Ctx.NC (x : Ctx) : Nat := x.CW * x.CH

/-- The pixel coordinates of a frame, in raster order. -/
def Ctx.pixels (x : Ctx) : List (Nat × Nat) :=
  (List.range x.H).flatMap fun py => (List.range x.W).map fun px => (px, py)

/-- The chroma block coordinates of a 4:2:0 frame, in raster order. -/
def Ctx.blocks (x : Ctx) : List (Nat × Nat) :=
  (List.range x.CH).flatMap fun bY => (List.range x.CW).map fun bX => (bX, bY)

/-- Channels per pixel, `ch(t)` (20_memory R79). -/
def channels (t : RgbType) : Nat :=
  match t with
  | .rgb8 | .rgbf => 3
  | .rgba8 | .rgbaf => 4

/-- Bytes per channel, `sz(t)` (20_memory R79). -/
def bytesPerChannel (t : RgbType) : Nat :=
  match t with
  | .rgb8 | .rgba8 => 1
  | .rgbf | .rgbaf => 4

/-- The buffer size of a YUV frame (20_memory R69). -/
def yuvSize (l : YuvLayout) (x : Ctx) : Nat :=
  match l with
  | .sub420 _ => x.NY + 2 * x.NC
  | .packed _ => 2 * x.NY

/-- The buffer size of an RGB frame (20_memory R69). -/
def rgbSize (t : RgbType) (x : Ctx) : Nat := channels t * bytesPerChannel t * x.NY

/-- `AY_L(b, x, y)` (20_memory R70 to R72). -/
def addrY (x : Ctx) (b px py : Nat) : Nat := b + py * x.W + px

/-- `AU_L(b, bx, by)` (20_memory R70 to R72). -/
def addrU (l : Sub420) (x : Ctx) (b bX bY : Nat) : Nat :=
  match l with
  | .i420 => b + x.NY + bY * x.CW + bX
  | .yv12 => b + x.NY + x.NC + bY * x.CW + bX
  | .nv12 => b + x.NY + bY * x.W + 2 * bX

/-- `AV_L(b, bx, by)` (20_memory R70 to R72). -/
def addrV (l : Sub420) (x : Ctx) (b bX bY : Nat) : Nat :=
  match l with
  | .i420 => b + x.NY + x.NC + bY * x.CW + bX
  | .yv12 => b + x.NY + bY * x.CW + bX
  | .nv12 => b + x.NY + bY * x.W + 2 * bX + 1

/-- `AG(b, i, y)`, the start of a packed group (20_memory R74). -/
def addrGroup (x : Ctx) (b i py : Nat) : Nat := b + 4 * (py * x.CW + i)

/-- The byte offset of Y0 in a packed group (20_memory R75 to R78). -/
def offY0 (l : Packed422) : Nat :=
  match l with
  | .yuyv => 0
  | .yvyu => 0
  | .uyvy => 1

/-- The byte offset of U in a packed group (20_memory R75 to R78). -/
def offU (l : Packed422) : Nat :=
  match l with
  | .yuyv => 1
  | .yvyu => 3
  | .uyvy => 0

/-- The byte offset of Y1 in a packed group (20_memory R75 to R78). -/
def offY1 (l : Packed422) : Nat :=
  match l with
  | .yuyv => 2
  | .yvyu => 2
  | .uyvy => 3

/-- The byte offset of V in a packed group (20_memory R75 to R78). -/
def offV (l : Packed422) : Nat :=
  match l with
  | .yuyv => 3
  | .yvyu => 1
  | .uyvy => 2

/-- A (Y, U, V) triple of samples. -/
structure Yuv where
  y : Byte
  u : Byte
  v : Byte
deriving DecidableEq, Repr

/-- `Fetch_L(b, x, y)` (20_memory R73, R78). -/
def fetch (l : YuvLayout) (x : Ctx) (m : Memory) (b px py : Nat) : Yuv :=
  match l with
  | .sub420 p =>
    { y := m.read (addrY x b px py)
      u := m.read (addrU p x b (px / 2) (py / 2))
      v := m.read (addrV p x b (px / 2) (py / 2)) }
  | .packed p =>
    { y := m.read (addrGroup x b (px / 2) py + (if px % 2 = 0 then offY0 p else offY1 p))
      u := m.read (addrGroup x b (px / 2) py + offU p)
      v := m.read (addrGroup x b (px / 2) py + offV p) }

/-- `ARGB(t, b, x, y, c)`, with c = 0, 1, 2, 3 for R, G, B, A (20_memory R79). -/
def addrRgb (t : RgbType) (x : Ctx) (b px py c : Nat) : Nat :=
  b + ((py * x.W + px) * channels t + c) * bytesPerChannel t

end Sys2Proof.Machine
end

