-- ==== Sys2Proof/Machine/Transform.lean ====
section
/-! DEFINITION. The Pixel Transform (40_transform R150 to R159): exact rational colour matrices, one rounding per output,
and the binary32 conversions. -/

namespace Sys2Proof.Machine

/-- Three rationals (r, g, b) on the 0..255 scale, unrounded. -/
structure Rgb where
  r : ℚ
  g : ℚ
  b : ℚ
deriving DecidableEq, Repr

/-- Three rationals (Y, U, V), unrounded. -/
structure YuvExact where
  y : ℚ
  u : ℚ
  v : ℚ
deriving DecidableEq, Repr

/-- `Dec(Y, U, V)` (40_transform R150). -/
def dec (k : DecodeMatrix) (p : Yuv) : Rgb :=
  let u : ℚ := (p.u.toNat : ℚ) - 128
  let v : ℚ := (p.v.toNat : ℚ) - 128
  let y : ℚ := (p.y.toNat : ℚ)
  { r := y + k.kRV * v
    g := y - k.kGU * u - k.kGV * v
    b := y + k.kBU * u }

/-- `Enc(r, g, b)` (40_transform R151). -/
def enc (k : EncodeMatrix) (p : Rgb) : YuvExact :=
  { y := k.yR * p.r + k.yG * p.g + k.yB * p.b
    u := k.uR * p.r + k.uG * p.g + k.uB * p.b + 128
    v := k.vR * p.r + k.vG * p.g + k.vB * p.b + 128 }

/-- `Q8(q) = clamp(⌊q + 1/2⌋, 0, 255)` (40_transform R154). -/
def q8 (q : ℚ) : Byte := BitVec.ofInt 8 (min (max ⌊q + 1 / 2⌋ 0) 255)

/-- `clamp(q, 0, 255)` (00_scope R8). -/
def clamp255 (q : ℚ) : ℚ := min (max q 0) 255

/-- FLOAT_SCALE as a number (00_scope R5). -/
def scaleValue (f : FloatScale) : ℚ :=
  match f with
  | .one => 1
  | .full255 => 255

/-- n / d rounded to the nearest integer, ties to even (d > 0). -/
def roundHalfEven (n d : Nat) : Nat :=
  if d < 2 * (n % d) ∨ (2 * (n % d) = d ∧ n / d % 2 = 1) then n / d + 1 else n / d

/-- ⌊log2 (n / d)⌋ for n, d > 0. -/
def log2Ratio (n d : Nat) : Int :=
  let e : Int := (Nat.log2 n : Int) - (Nat.log2 d : Int)
  if n * 2 ^ (-e).toNat < d * 2 ^ e.toNat then e - 1 else e

/-- The binary32 bits of n / d ≥ 0 rounded to nearest, ties to even (40_transform R155; IEEE 754, log 17). The exponent
is held at -126 from below, which gives the subnormals; a significand that rounds up to 2^24 carries into the exponent;
a value past the largest finite one gives infinity, which no operation reaches. -/
def rne32Magnitude (n d : Nat) : Nat :=
  if n = 0 then 0
  else
    let e : Int := max (log2Ratio n d) (-126)
    let s : Int := 23 - e
    min ((e + 126).toNat * 2 ^ 23 + roundHalfEven (n * 2 ^ s.toNat) (d * 2 ^ (-s).toNat)) 0x7F800000

/-- `RNE32(x)`: the binary32 value nearest to x, as bits (40_transform R155). The spec uses it for x ≥ 0 only. -/
def rne32 (x : ℚ) : Word :=
  if x < 0 then 0x80000000#32 ||| BitVec.ofNat 32 (rne32Magnitude x.num.natAbs x.den)
  else BitVec.ofNat 32 (rne32Magnitude x.num.natAbs x.den)

/-- `QF(q) = RNE32(clamp(q, 0, 255) * FLOAT_SCALE / 255)` (40_transform R155). -/
def qf (f : FloatScale) (q : ℚ) : Word := rne32 (clamp255 q * scaleValue f / 255)

/-- `F32(bits)`: the exact value of a finite binary32, none for a NaN or an infinity (40_transform R157, R158; IEEE 754,
log 17). -/
def f32 (bits : Word) : Option ℚ :=
  let frac := (bits.extractLsb' 0 23).toNat
  let e := (bits.extractLsb' 23 8).toNat
  let magnitude : ℚ :=
    if e = 0 then (frac : ℚ) / ((2 ^ 149 : Nat) : ℚ)
    else if e < 150 then ((2 ^ 23 + frac : Nat) : ℚ) / ((2 ^ (150 - e) : Nat) : ℚ)
    else (((2 ^ 23 + frac) * 2 ^ (e - 150) : Nat) : ℚ)
  if e = 255 then none
  else some (if bits.getLsbD 31 then -magnitude else magnitude)

/-- One channel as `LoadRGB` reads it, on the 0..255 scale; none for a NaN or an infinity (40_transform R157, R158). -/
def loadChannel (f : FloatScale) (t : RgbType) (m : Memory) (a : Nat) : Option ℚ :=
  if bytesPerChannel t = 1 then some ((m.read a).toNat : ℚ)
  else (f32 (m.read32 a)).map fun q => q * 255 / scaleValue f

/-- `LoadRGB(t, b, x, y)` (40_transform R157): none when a channel is a NaN or an infinity (R158). The alpha channel is
not read. -/
def loadRgb (c : Config) (t : RgbType) (x : Ctx) (m : Memory) (b px py : Nat) : Option Rgb :=
  match loadChannel c.floatScale t m (addrRgb t x b px py 0), loadChannel c.floatScale t m (addrRgb t x b px py 1),
    loadChannel c.floatScale t m (addrRgb t x b px py 2) with
  | some r, some g, some bl => some { r := r, g := g, b := bl }
  | _, _, _ => none

/-- The byte writes of one channel of value `q` at address `a` (40_transform R156). -/
def channelCells (f : FloatScale) (t : RgbType) (a : Nat) (q : ℚ) : List Host.Cell :=
  if bytesPerChannel t = 1 then [(a, q8 q)] else cells32 a (qf f q)

/-- The byte writes of the opaque alpha channel at address `a` (40_transform R156). -/
def alphaCells (f : FloatScale) (t : RgbType) (a : Nat) : List Host.Cell :=
  if bytesPerChannel t = 1 then [(a, 255)] else cells32 a (rne32 (scaleValue f))

/-- `StoreRGB(t, b, x, y, (r, g, b))` as byte writes (40_transform R156). -/
def storeRgb (c : Config) (t : RgbType) (x : Ctx) (b px py : Nat) (p : Rgb) : List Host.Cell :=
  channelCells c.floatScale t (addrRgb t x b px py 0) p.r
    ++ channelCells c.floatScale t (addrRgb t x b px py 1) p.g
    ++ channelCells c.floatScale t (addrRgb t x b px py 2) p.b
    ++ (if channels t = 4 then alphaCells c.floatScale t (addrRgb t x b px py 3) else [])

/-- The exact (Y, U, V) of one pixel of an RGB buffer, none if a channel is not finite. -/
def encodePixel (c : Config) (t : RgbType) (x : Ctx) (m : Memory) (b px py : Nat) : Option YuvExact :=
  (loadRgb c t x m b px py).map (enc c.menc)

/-- The Y sample of a pixel (42_rgb_to_yuv R240), none when it may be any value (40_transform R158). -/
def lumaSample (c : Config) (t : RgbType) (x : Ctx) (m : Memory) (b px py : Nat) : Option Byte :=
  (encodePixel c t x m b px py).map fun p => q8 p.y

/-- `ChromaBlock(t, b, bx, by)`: the U and V samples of a chroma block, the exact means of its four pixels rounded once
(40_transform R153), none when they may be any value (R158). -/
def chromaBlock (c : Config) (t : RgbType) (x : Ctx) (m : Memory) (b bX bY : Nat) : Option (Byte × Byte) :=
  match encodePixel c t x m b (2 * bX) (2 * bY), encodePixel c t x m b (2 * bX + 1) (2 * bY),
    encodePixel c t x m b (2 * bX) (2 * bY + 1), encodePixel c t x m b (2 * bX + 1) (2 * bY + 1) with
  | some p00, some p10, some p01, some p11 =>
    some (q8 ((p00.u + p10.u + p01.u + p11.u) / 4), q8 ((p00.v + p10.v + p01.v + p11.v) / 4))
  | _, _, _, _ => none

end Sys2Proof.Machine
end

