-- ==== Sys2Proof/Machine/Codec.lean ====
section
/-! DEFINITION. The Data Channel Codec (43_data_channel R270 to R281): placement, capacity, bit order, sample encoding
and the vote. -/

namespace Sys2Proof.Machine

/-- `Place(k, f)`: the block (bx, by) of U index k (43_data_channel R271, R272). -/
def place (x : Ctx) (k : Nat) (flip : Bool) : Nat × Nat :=
  (k % x.CW, if flip then x.CH - 1 - k / x.CW else k / x.CW)

/-- capBits = NC // RED (43_data_channel R273). -/
def capBits (c : Config) (x : Ctx) : Nat := x.NC / c.red

/-- capBytes = capBits // 8 (43_data_channel R273). -/
def capBytes (c : Config) (x : Ctx) : Nat := capBits c x / 8

/-- The auxiliary length in bytes. -/
def Ctx.auxBytes (x : Ctx) : Nat := x.auxlen.toNat

/-- The auxiliary length exceeds the capacity under CAP_POLICY = FAIL (43_data_channel R280). -/
def overCapacity (c : Config) (x : Ctx) : Bool :=
  decide (c.capPolicy = .fail) && decide (capBytes c x < x.auxBytes)

/-- How many bits an embed operation embeds (43_data_channel R280, R281, R285). -/
def embedBits (c : Config) (x : Ctx) : Nat :=
  match c.capPolicy with
  | .fail => 8 * x.auxBytes
  | .truncate => min (8 * x.auxBytes) (capBits c x)

/-- How many bytes an extract operation writes (43_data_channel R280, R281, R290). -/
def extractBytes (c : Config) (x : Ctx) : Nat :=
  match c.capPolicy with
  | .fail => x.auxBytes
  | .truncate => min x.auxBytes (capBytes c x)

/-- Bit g of the auxiliary stream in the buffer at `b`: byte 0 first, most significant bit first
(43_data_channel R274). -/
def auxBit (m : Memory) (b g : Nat) : Bool := (m.read (b + g / 8)).getLsbD (7 - g % 8)

/-- The U sample written for a bit over the natural U sample (43_data_channel R276). -/
def embedSample (c : Config) (bit : Bool) (natural : Byte) : Byte :=
  if bit then c.oneLevel else natural >>> c.shift

/-- How many of the RED samples of bit g's group are at or above THRESH (43_data_channel R278), for the samples by
U index. -/
def votes (c : Config) (sample : Nat → Byte) (g : Nat) : Nat :=
  (List.range c.red).countP fun j => decide (c.thresh ≤ (sample (g * c.red + j)).toNat)

/-- Bit g by strict majority: a tie gives 0 (43_data_channel R278). -/
def decodeBit (c : Config) (sample : Nat → Byte) (g : Nat) : Bool := decide (c.red < 2 * votes c sample g)

/-- Decoded byte i (43_data_channel R279). -/
def decodeByte (c : Config) (sample : Nat → Byte) (i : Nat) : Byte :=
  BitVec.ofNat 8 ((List.range 8).map fun j => if decodeBit c sample (8 * i + j) then 2 ^ (7 - j) else 0).sum

/-- The U sample of U index k in a 4:2:0 frame at base `b`, read without flip (43_data_channel R271). -/
def storedU (l : Sub420) (x : Ctx) (m : Memory) (b k : Nat) : Byte :=
  m.read (addrU l x b (place x k false).1 (place x k false).2)

end Sys2Proof.Machine
end

