-- ==== Sys2Proof/Machine/Operands.lean ====
section
/-! DEFINITION. The operands of an operation, all taken from the latched context (30_encoding R104): its buffers, their
regions, and the argument validation of 40_transform R133. -/

namespace Sys2Proof.Machine

/-- What each instruction converts (30_encoding R110), with the sample types of the data-channel operations from
their parameters (00_scope R5). -/
def operationOf (c : Config) (i : Instr) : Operation :=
  match i with
  | .i420ToRgb8 => .yuvToRgb (.sub420 .i420) .rgb8
  | .i420ToRgbf => .yuvToRgb (.sub420 .i420) .rgbf
  | .i420ToRgba8 => .yuvToRgb (.sub420 .i420) .rgba8
  | .i420ToRgbaf => .yuvToRgb (.sub420 .i420) .rgbaf
  | .yv12ToRgb8 => .yuvToRgb (.sub420 .yv12) .rgb8
  | .yv12ToRgbf => .yuvToRgb (.sub420 .yv12) .rgbf
  | .yv12ToRgba8 => .yuvToRgb (.sub420 .yv12) .rgba8
  | .yv12ToRgbaf => .yuvToRgb (.sub420 .yv12) .rgbaf
  | .nv12ToRgb8 => .yuvToRgb (.sub420 .nv12) .rgb8
  | .nv12ToRgbf => .yuvToRgb (.sub420 .nv12) .rgbf
  | .nv12ToRgba8 => .yuvToRgb (.sub420 .nv12) .rgba8
  | .nv12ToRgbaf => .yuvToRgb (.sub420 .nv12) .rgbaf
  | .yuyvToRgb8 => .yuvToRgb (.packed .yuyv) .rgb8
  | .yuyvToRgbf => .yuvToRgb (.packed .yuyv) .rgbf
  | .yuyvToRgba8 => .yuvToRgb (.packed .yuyv) .rgba8
  | .yuyvToRgbaf => .yuvToRgb (.packed .yuyv) .rgbaf
  | .yvyuToRgb8 => .yuvToRgb (.packed .yvyu) .rgb8
  | .yvyuToRgbf => .yuvToRgb (.packed .yvyu) .rgbf
  | .yvyuToRgba8 => .yuvToRgb (.packed .yvyu) .rgba8
  | .yvyuToRgbaf => .yuvToRgb (.packed .yvyu) .rgbaf
  | .uyvyToRgb8 => .yuvToRgb (.packed .uyvy) .rgb8
  | .uyvyToRgbf => .yuvToRgb (.packed .uyvy) .rgbf
  | .uyvyToRgba8 => .yuvToRgb (.packed .uyvy) .rgba8
  | .uyvyToRgbaf => .yuvToRgb (.packed .uyvy) .rgbaf
  | .rgb8ToI420 => .rgbToYuv .rgb8 .i420
  | .rgbfToI420 => .rgbToYuv .rgbf .i420
  | .rgba8ToI420 => .rgbToYuv .rgba8 .i420
  | .rgbafToI420 => .rgbToYuv .rgbaf .i420
  | .rgb8ToYv12 => .rgbToYuv .rgb8 .yv12
  | .rgbfToYv12 => .rgbToYuv .rgbf .yv12
  | .rgba8ToYv12 => .rgbToYuv .rgba8 .yv12
  | .rgbafToYv12 => .rgbToYuv .rgbaf .yv12
  | .rgb8ToNv12 => .rgbToYuv .rgb8 .nv12
  | .rgbfToNv12 => .rgbToYuv .rgbf .nv12
  | .rgba8ToNv12 => .rgbToYuv .rgba8 .nv12
  | .rgbafToNv12 => .rgbToYuv .rgbaf .nv12
  | .rgb8ToI420Embed flip => .embed c.embedType flip
  | .nv12ToRgba8Extract => .extract c.extractType

/-- AUX = 1: a data-channel operation (43_data_channel R270). -/
def usesAux (op : Operation) : Bool :=
  match op with
  | .yuvToRgb _ _ => false
  | .rgbToYuv _ _ => false
  | .embed _ _ => true
  | .extract _ => true

/-- The source region (20_memory R69; 41 R201, 42 R241, 43 R285, R290). -/
def srcRegion (op : Operation) (x : Ctx) : Region :=
  match op with
  | .yuvToRgb l _ => { base := x.src.toNat, size := yuvSize l x }
  | .rgbToYuv t _ => { base := x.src.toNat, size := rgbSize t x }
  | .embed t _ => { base := x.src.toNat, size := rgbSize t x }
  | .extract _ => { base := x.src.toNat, size := yuvSize (.sub420 .nv12) x }

/-- The destination region (20_memory R69; 41 R201, 42 R241, 43 R285, R290). -/
def dstRegion (op : Operation) (x : Ctx) : Region :=
  match op with
  | .yuvToRgb _ t => { base := x.dst.toNat, size := rgbSize t x }
  | .rgbToYuv _ l => { base := x.dst.toNat, size := yuvSize (.sub420 l) x }
  | .embed _ _ => { base := x.dst.toNat, size := yuvSize (.sub420 .i420) x }
  | .extract t => { base := x.dst.toNat, size := rgbSize t x }

/-- The auxiliary region (20_memory R69), empty for an operation that has none. -/
def auxRegion (op : Operation) (x : Ctx) : Region :=
  if usesAux op then { base := x.aux.toNat, size := x.auxBytes } else { base := 0, size := 0 }

/-- The regions an operation reads: its source, and the auxiliary region of an embed (20_memory R60). -/
def readRegions (op : Operation) (x : Ctx) : List Region :=
  match op with
  | .yuvToRgb _ _ => [srcRegion op x]
  | .rgbToYuv _ _ => [srcRegion op x]
  | .embed _ _ => [srcRegion op x, auxRegion op x]
  | .extract _ => [srcRegion op x]

/-- The regions an operation writes: its destination, and the auxiliary region of an extract (20_memory R60). -/
def writeRegions (op : Operation) (x : Ctx) : List Region :=
  match op with
  | .yuvToRgb _ _ => [dstRegion op x]
  | .rgbToYuv _ _ => [dstRegion op x]
  | .embed _ _ => [dstRegion op x]
  | .extract _ => [dstRegion op x, auxRegion op x]

/-- The size of the destination region that the fields of `ctx.cmd` give (20_memory R69, 30_encoding R100): 0 where the
destination is a YUV frame and YFMT names no layout, for R69 then gives none. -/
def contextDstSize (x : Ctx) : Nat :=
  if fieldDir x.cmd then
    match layoutOfCode (fieldYfmt x.cmd) with
    | some l => yuvSize l x
    | none => 0
  else rgbSize (rgbTypeOfCode (fieldRgbt x.cmd)) x

/-- The destination region of `ctx` and, where AUX = 1 and DIR = 0, its auxiliary region (10_state R43). For a word that
names an operation they are the regions it writes. For another word they are taken from its fields (log 8). -/
def contextRegions (x : Ctx) : List Region :=
  { base := x.dst.toNat, size := contextDstSize x }
    :: if fieldAux x.cmd && !(fieldDir x.cmd) then [{ base := x.aux.toNat, size := x.auxBytes }] else []

/-- An address lies in a region. -/
def inRegion (r : Region) (a : Nat) : Bool := decide (r.base ≤ a) && decide (a < r.base + r.size)

/-- An address lies in one of some regions. -/
def inRegions (rs : List Region) (a : Nat) : Bool := rs.any fun r => inRegion r a

/-- Two regions share a byte. -/
def regionsOverlap (r q : Region) : Bool :=
  decide (0 < r.size) && decide (0 < q.size) && decide (r.base < q.base + q.size) && decide (q.base < r.base + r.size)

/-- The overlaps of 20_memory R94: the destination with the source or the auxiliary region, or an extract's auxiliary
region with its source. -/
def selfOverlap (op : Operation) (x : Ctx) : Bool :=
  match op with
  | .yuvToRgb _ _ => regionsOverlap (dstRegion op x) (srcRegion op x)
  | .rgbToYuv _ _ => regionsOverlap (dstRegion op x) (srcRegion op x)
  | .embed _ _ => regionsOverlap (dstRegion op x) (srcRegion op x) || regionsOverlap (dstRegion op x) (auxRegion op x)
  | .extract _ =>
    regionsOverlap (dstRegion op x) (srcRegion op x) || regionsOverlap (dstRegion op x) (auxRegion op x)
      || regionsOverlap (auxRegion op x) (srcRegion op x)

/-- The type and base address of the operation's RGB buffer. -/
def rgbBuffer (op : Operation) (x : Ctx) : RgbType × Nat :=
  match op with
  | .yuvToRgb _ t => (t, x.dst.toNat)
  | .rgbToYuv t _ => (t, x.src.toNat)
  | .embed t _ => (t, x.src.toNat)
  | .extract t => (t, x.dst.toNat)

/-- Item (a): a null source or destination (40_transform R133, 20_memory R61). -/
def nullPointer (x : Ctx) : Bool := decide (x.src = 0) || decide (x.dst = 0)

/-- Item (b): a null auxiliary pointer of a data-channel operation (40_transform R133). -/
def nullAux (op : Operation) (x : Ctx) : Bool := usesAux op && decide (x.aux = 0)

/-- Item (c): a zero dimension (40_transform R133). -/
def zeroDimension (x : Ctx) : Bool := decide (x.W = 0) || decide (x.H = 0)

/-- Item (d): an odd dimension (40_transform R133). -/
def oddDimension (x : Ctx) : Bool := decide (x.W % 2 = 1) || decide (x.H % 2 = 1)

/-- An address has a bit set at or above bit ADDR_W. -/
def highBits (c : Config) (a : Addr) : Bool := decide (2 ^ c.addrW ≤ a.toNat)

/-- Item (e): address bits at or above ADDR_W (40_transform R133, 10_state R32). -/
def addressTooWide (c : Config) (op : Operation) (x : Ctx) : Bool :=
  highBits c x.src || highBits c x.dst || (usesAux op && highBits c x.aux)

/-- Item (f): an RGBF or RGBAF buffer whose base is not a multiple of 4 (40_transform R133, 20_memory R65). -/
def misalignedFloat (op : Operation) (x : Ctx) : Bool :=
  decide (bytesPerChannel (rgbBuffer op x).1 = 4) && decide ((rgbBuffer op x).2 % 4 ≠ 0)

/-- A region passes the top of the address space (20_memory R63). -/
def pastTop (c : Config) (r : Region) : Bool := decide (2 ^ c.addrW < r.base + r.size)

/-- Item (g): a buffer passes the top of the address space (40_transform R133). -/
def bufferPastTop (c : Config) (op : Operation) (x : Ctx) : Bool :=
  pastTop c (srcRegion op x) || pastTop c (dstRegion op x) || (usesAux op && pastTop c (auxRegion op x))

/-- Argument validation: any of the items (a) to (g) (40_transform R133). -/
def invalidArgument (c : Config) (op : Operation) (x : Ctx) : Bool :=
  nullPointer x || nullAux op x || zeroDimension x || oddDimension x || addressTooWide c op x || misalignedFloat op x
    || bufferPastTop c op x

/-- The capacity check, for the data-channel operations only (40_transform R134). -/
def capacityExceeded (c : Config) (op : Operation) (x : Ctx) : Bool := usesAux op && overCapacity c x

/-- A buffer of the operation lies on addresses with read side effects (20_memory R66). -/
def onSideEffects (c : Config) (op : Operation) (x : Ctx) : Bool :=
  c.sideEffects.any fun r => (readRegions op x ++ writeRegions op x).any fun q => regionsOverlap r q

end Sys2Proof.Machine
end

