-- ==== Sys2Proof/Machine/Ops.lean ====
section
/-! DEFINITION. The shared operations on the state: START, completion (the core's nearest thing to taking an exception,
60_exceptions R304) and acknowledge (its return, R305), register reads and writes, reset, and what other agents do to
memory. -/

namespace Sys2Proof.Machine

/-- The context that START latches (10_state R41, 40_transform R130). -/
def latch (s : State) : Ctx :=
  { cmd := s.cmd, w := s.width, h := s.height, auxlen := s.auxLen
    src := s.srcHi ++ s.srcLo, dst := s.dstHi ++ s.dstLo, aux := s.auxHi ++ s.auxLo }

/-- START: ignored while BUSY, else the latch and the clears (40_transform R130). The checks and the execution are the
core's turn. -/
def start (s : State) : State :=
  match s.phase with
  | .busy => s
  | .idle =>
    { s with ctx := latch s, done := false, code := .success, auxCount := 0, phase := .busy, touched := []
             deviceFault := false }

/-- `complete(code)` with count `n` (40_transform R131, 60_exceptions R304). While IDLE the latched context may be any
value and is never read (10_state R40, 93_implementation_defined U26). DESIGN CHOICE: it keeps what START latched (log 7).
-/
def complete (k : StatusCode) (n : Nat) (s : State) : State :=
  { s with code := k, auxCount := if k = .success then BitVec.ofNat 32 n else 0, phase := .idle, done := true
           touched := [], deviceFault := false }

/-- Acknowledge: DONE is cleared and nothing is restored (10_state R28, 60_exceptions R305). -/
def acknowledge (s : State) : State := { s with done := false }

/-- The offset of a register in the block (10_state R23). -/
def regOffset (r : Reg) : Nat :=
  match r with
  | .ctrl => 0x00
  | .status => 0x04
  | .cmd => 0x08
  | .width => 0x0C
  | .height => 0x10
  | .auxLen => 0x14
  | .srcLo => 0x18
  | .srcHi => 0x1C
  | .dstLo => 0x20
  | .dstHi => 0x24
  | .auxLo => 0x28
  | .auxHi => 0x2C
  | .auxCount => 0x30

/-- The register at an offset, none at a reserved one (10_state R23). -/
def regAt (off : Nat) : Option Reg :=
  [Reg.ctrl, .status, .cmd, .width, .height, .auxLen, .srcLo, .srcHi, .dstLo, .dstHi, .auxLo, .auxHi, .auxCount].find?
    fun r => regOffset r = off

/-- What a read of a register returns (10_state R26 to R33). -/
def readReg (s : State) (r : Reg) : Word :=
  match r with
  | .ctrl => ctrlWord s
  | .status => statusWord s
  | .cmd => s.cmd
  | .width => s.width
  | .height => s.height
  | .auxLen => s.auxLen
  | .srcLo => s.srcLo
  | .srcHi => s.srcHi
  | .dstLo => s.dstLo
  | .dstHi => s.dstHi
  | .auxLo => s.auxLo
  | .auxHi => s.auxHi
  | .auxCount => s.auxCount

/-- A write of CTRL: IRQ_EN from bit 1, then START if bit 0 is 1 (10_state R26). -/
def writeCtrl (v : Word) (s : State) : State :=
  if v.getLsbD 0 then start { s with irqEn := v.getLsbD 1 } else { s with irqEn := v.getLsbD 1 }

/-- A write of STATUS: bit 1 clears DONE, every other bit is ignored (10_state R28). -/
def writeStatus (v : Word) (s : State) : State := if v.getLsbD 1 then acknowledge s else s

/-- A write of a register (10_state R24, R26, R28 to R34). AUX_COUNT is read-only. -/
def writeReg (r : Reg) (v : Word) (s : State) : State :=
  match r with
  | .ctrl => writeCtrl v s
  | .status => writeStatus v s
  | .cmd => { s with cmd := v }
  | .width => { s with width := v }
  | .height => { s with height := v }
  | .auxLen => { s with auxLen := v }
  | .srcLo => { s with srcLo := v }
  | .srcHi => { s with srcHi := v }
  | .dstLo => { s with dstLo := v }
  | .dstHi => { s with dstHi := v }
  | .auxLo => { s with auxLo := v }
  | .auxHi => { s with auxHi := v }
  | .auxCount => s

/-- A bus access touches this core's register block: one of its bytes lies in the 256 bytes at BASE (10_state R23). An
access of no bytes is judged by its address, and one that passes the top of the bus does not come round (log 12). -/
def selected (c : Config) (a : BusAddr) (bytes : Nat) : Bool :=
  decide (c.base.toNat < a.toNat + max bytes 1) && decide (a.toNat < c.base.toNat + 256)

/-- A naturally aligned 32-bit access to the register block (10_state R24). -/
def fits (c : Config) (a : BusAddr) (bytes : Nat) : Bool :=
  selected c a bytes && decide (c.base.toNat ≤ a.toNat) && decide (bytes = 4) && decide (a.toNat % 4 = 0)

/-- The word a bus read of the register block returns: 0 at a reserved offset (10_state R24). -/
def readAt (s : State) (a : BusAddr) : Word :=
  match regAt (a.toNat - s.cfg.base.toNat) with
  | some r => readReg s r
  | none => 0

/-- A bus write to the register block: ignored at a reserved offset (10_state R24). -/
def writeAt (a : BusAddr) (v : Word) (s : State) : State :=
  match regAt (a.toNat - s.cfg.base.toNat) with
  | some r => writeReg r v s
  | none => s

/-- The regions that hold any value while the core is BUSY: the destination region of `ctx` and an extract's auxiliary
region, whatever becomes of the operation (10_state R43, 70_reset_and_hazards R331). -/
def busyRegions (s : State) : List Region :=
  match s.phase with
  | .idle => []
  | .busy => contextRegions s.ctx

/-- The part of a region that lies in the memory space (20_memory R60). -/
def clampRegion (c : Config) (r : Region) : Region := { base := r.base, size := min r.size (2 ^ c.addrW - r.base) }

/-- Any value for every byte of some regions, as byte writes. -/
def freeCells (free : Nat → Byte) (rs : List Region) : List Host.Cell :=
  rs.flatMap fun r => (List.range r.size).map fun k => (r.base + k, free (r.base + k))

/-- Reset: every register and the internal state as after reset, memory kept but, when it abandons an operation, for
every byte of its destination region and of an extract's auxiliary region, which hold any value whatever the operation
would have completed with (70_reset_and_hazards R330, R331; 93_implementation_defined U25). Only addresses of the memory
space have bytes to free (20_memory R60; log 9). DESIGN CHOICE: an operation with a buffer on addresses with read side
effects, which the core's turn would refuse (20_memory R66), is abandoned as one on ordinary memory (log 13). The
parameters, what the bus last returned, the host's cache and what still happens are not the core's. -/
def resetCore (s : State) : State :=
  { State.resetWith s.cfg with
    mem := s.mem.writeAll (freeCells (Config.freeByte s.draws) ((busyRegions s).map (clampRegion s.cfg)))
    draws := s.draws + 1, hostCache := s.hostCache, rdata := s.rdata, hdata := s.hdata, inputs := s.inputs }

/-- Every byte of a store lies in the memory space (20_memory R60). -/
def inSpace (c : Config) (a : Addr) (n : Nat) : Bool := decide (a.toNat + n ≤ 2 ^ c.addrW)

/-- A store by an agent while BUSY is recorded, whether it is performed at once or held in a cache (20_memory R93,
70_reset_and_hazards R341; log 16). -/
def recordStore (a : Nat) (s : State) : State :=
  { s with touched := if s.phase = .busy then a :: s.touched else s.touched }

/-- One byte store performed in the memory space, which the register block is not part of (log 26). -/
def performStore (a : Nat) (v : Byte) (s : State) : State := { recordStore a s with mem := s.mem.write a v }

/-- The cached byte of an address, if the host's cache holds one. -/
def cachedLine (cache : List CacheLine) (a : Nat) : Option CacheLine := cache.find? fun l => l.addr = a

/-- The host's cache with a line put in place of any it had for the same address. -/
def putLine (cache : List CacheLine) (l : CacheLine) : List CacheLine := l :: cache.filter fun k => k.addr ≠ l.addr

/-- One byte store by the host: performed at once when COHERENT, else held in the host's cache (20_memory R92,
70_reset_and_hazards R345), and recorded either way (R341). -/
def hostStoreByte (a : Nat) (v : Byte) (s : State) : State :=
  if s.cfg.coherent then performStore a v s
  else { recordStore a s with hostCache := putLine s.hostCache { addr := a, byte := v, dirty := true } }

/-- A store of bytes from `a` up, byte by byte. -/
def storeBytes (one : Nat → Byte → State → State) (a : Nat) (bytes : List Byte) (s : State) : State :=
  match bytes with
  | [] => s
  | v :: rest => storeBytes one (a + 1) rest (one a v s)

/-- A store of bytes by the host, through its cache when not COHERENT. -/
def hostStore (a : Nat) (bytes : List Byte) (s : State) : State := storeBytes hostStoreByte a bytes s

/-- A store of bytes by an agent that the host's cache does not serve: performed in the memory space at once, whatever
COHERENT is, and the host's cached copies stay as they are (60_exceptions R319, 20_memory R95, 70_reset_and_hazards R345).
-/
def agentStore (a : Nat) (bytes : List Byte) (s : State) : State := storeBytes performStore a bytes s

/-- The byte a host load finds where the core is not writing: the one in memory, or when not COHERENT a cached copy of it
(70_reset_and_hazards R345; log 14). -/
def hostByte (s : State) (a : Nat) : Byte :=
  if s.cfg.coherent then s.mem.read a
  else
    match cachedLine s.hostCache a with
    | some l => l.byte
    | none => s.mem.read a

/-- The byte a load returns for one that finds `found`: any value in a region the core may be writing, cached copy or not
(10_state R43, 20_memory R90). -/
def observed (s : State) (a : Nat) (found : Byte) : Byte :=
  if inRegions (busyRegions s) a then Config.freeByte s.draws a else found

/-- The byte a host load returns. -/
def observedByte (s : State) (a : Nat) : Byte := observed s a (hostByte s a)

/-- The host's cache after a load: when not COHERENT a byte it did not hold is kept as a copy (70_reset_and_hazards R345;
log 14). -/
def loadedCache (s : State) (a : Nat) : List CacheLine :=
  if s.cfg.coherent || (cachedLine s.hostCache a).isSome then s.hostCache
  else putLine s.hostCache { addr := a, byte := observedByte s a, dirty := false }

/-- A host load of one byte. -/
def hostLoad (a : Nat) (s : State) : State :=
  { s with hdata := observedByte s a, draws := s.draws + 1, hostCache := loadedCache s a }

/-- A load of one byte by an agent that the host's cache does not serve (20_memory R90, R91). -/
def agentLoad (a : Nat) (s : State) : State :=
  { s with hdata := observed s a (s.mem.read a), draws := s.draws + 1 }

/-- A line that a write back of a region performs. -/
def toWriteBack (r : Region) (l : CacheLine) : Bool := l.dirty && inRegion r l.addr

/-- The stores of some cached lines, performed in the memory space. -/
def performLines (lines : List CacheLine) (s : State) : State :=
  match lines with
  | [] => s
  | l :: rest => performLines rest (performStore l.addr l.byte s)

/-- The host writes back its cached stores to a region (70_reset_and_hazards R345). -/
def writeBackRegion (r : Region) (s : State) : State :=
  { performLines (s.hostCache.filter (toWriteBack r)) s with
    hostCache := s.hostCache.map fun l => if toWriteBack r l then { l with dirty := false } else l }

/-- The host discards its cached copies of a region (70_reset_and_hazards R345). -/
def discardRegion (r : Region) (s : State) : State :=
  { s with hostCache := s.hostCache.filter fun l => !(inRegion r l.addr) }

end Sys2Proof.Machine
end

