-- ==== Sys2Proof/Machine/Execute.lean ====
section
/-! DEFINITION. The writes of each kind of operation (41 R200, 42 R240, 43 R285, R290) and the course every operation
takes from its checks to its completion (40_transform R132 to R137). -/

namespace Sys2Proof.Machine

/-- The writes of a YUV to RGB conversion (41_yuv_to_rgb R200). -/
def yuvToRgbCells (c : Config) (l : YuvLayout) (t : RgbType) (x : Ctx) (m : Memory) : List Host.Cell :=
  x.pixels.flatMap fun p =>
    storeRgb c t x x.dst.toNat p.1 p.2 (dec c.mdec (fetch l x m x.src.toNat p.1 p.2))

/-- The writes of the Y plane from an RGB frame (42_rgb_to_yuv R240). A sample the spec leaves open is `free` at its
address (40_transform R158). -/
def lumaCells (c : Config) (t : RgbType) (x : Ctx) (m : Memory) (free : Nat → Byte) : List Host.Cell :=
  x.pixels.map fun p =>
    let a := addrY x x.dst.toNat p.1 p.2
    (a, (lumaSample c t x m x.src.toNat p.1 p.2).getD (free a))

/-- The natural U and V of a block of the destination frame (40_transform R153), `free` at their addresses where the
spec leaves them open (R158). -/
def chromaSample (c : Config) (t : RgbType) (l : Sub420) (x : Ctx) (m : Memory) (free : Nat → Byte)
    (b : Nat × Nat) : Byte × Byte :=
  (chromaBlock c t x m x.src.toNat b.1 b.2).getD
    (free (addrU l x x.dst.toNat b.1 b.2), free (addrV l x x.dst.toNat b.1 b.2))

/-- The writes of an RGB to YUV conversion (42_rgb_to_yuv R240). -/
def rgbToYuvCells (c : Config) (t : RgbType) (l : Sub420) (x : Ctx) (m : Memory) (free : Nat → Byte) :
    List Host.Cell :=
  lumaCells c t x m free
    ++ x.blocks.flatMap fun b =>
      [ (addrU l x x.dst.toNat b.1 b.2, (chromaSample c t l x m free b).1),
        (addrV l x x.dst.toNat b.1 b.2, (chromaSample c t l x m free b).2) ]

/-- The U sample an embed operation writes for U index k, over the natural one (43_data_channel R276, R277, R285). -/
def embeddedU (c : Config) (x : Ctx) (m : Memory) (k : Nat) (natural : Byte) : Byte :=
  if k < embedBits c x * c.red then embedSample c (auxBit m x.aux.toNat (k / c.red)) natural else natural

/-- The writes of an embed operation (43_data_channel R285). -/
def embedCells (c : Config) (t : RgbType) (flip : Bool) (x : Ctx) (m : Memory) (free : Nat → Byte) : List Host.Cell :=
  lumaCells c t x m free
    ++ (List.range x.NC).flatMap fun k =>
      let b := place x k flip
      [ (addrU .i420 x x.dst.toNat b.1 b.2, embeddedU c x m k (chromaSample c t .i420 x m free b).1),
        (addrV .i420 x x.dst.toNat b.1 b.2, (chromaSample c t .i420 x m free b).2) ]

/-- The writes of an extract operation (43_data_channel R290). -/
def extractCells (c : Config) (t : RgbType) (x : Ctx) (m : Memory) : List Host.Cell :=
  yuvToRgbCells c (.sub420 .nv12) t x m
    ++ (List.range (extractBytes c x)).map fun i =>
      (x.aux.toNat + i, decodeByte c (storedU .nv12 x m x.src.toNat) i)

/-- The writes of an operation, each a function of memory as it stood (40_transform R135, R137). -/
def operationCells (c : Config) (op : Operation) (x : Ctx) (m : Memory) (free : Nat → Byte) : List Host.Cell :=
  match op with
  | .yuvToRgb l t => yuvToRgbCells c l t x m
  | .rgbToYuv t l => rgbToYuvCells c t l x m free
  | .embed t flip => embedCells c t flip x m free
  | .extract t => extractCells c t x m

/-- The count an operation completes with (10_state R33). -/
def operationCount (c : Config) (op : Operation) (x : Ctx) : Nat :=
  match op with
  | .yuvToRgb _ _ => 0
  | .rgbToYuv _ _ => 0
  | .embed _ _ => embedBits c x / 8
  | .extract _ => extractBytes c x

/-- Another agent stored to a region of the operation since START (20_memory R93). -/
def disturbed (op : Operation) (s : State) : Bool :=
  s.touched.any fun a => inRegions (readRegions op s.ctx ++ writeRegions op s.ctx) a

/-- Every byte the operation writes holds any value (20_memory R93, R94). -/
def outputFree (op : Operation) (s : State) : Bool := selfOverlap op s.ctx || disturbed op s

/-- Any value for every byte of some regions that another agent stored to since START, whatever the operation completes
with (20_memory R93, 93_implementation_defined U22). -/
def storedCells (free : Nat → Byte) (rs : List Region) (s : State) : List Host.Cell :=
  (s.touched.filter (inRegions (rs.map (clampRegion s.cfg)))).map fun a => (a, free a)

/-- Any value for every byte the operation writes, and for every byte of a region it writes that another agent stored
to since START (20_memory R93, R94). -/
def freedCells (free : Nat → Byte) (op : Operation) (s : State) (cells : List Host.Cell) : List Host.Cell :=
  (cells.map fun p => (p.1, free p.1)) ++ storedCells free (writeRegions op s.ctx) s

/-- The writes an operation performs in a state: its rule's, or free ones. -/
def outputCells (free : Nat → Byte) (op : Operation) (s : State) : List Host.Cell :=
  let cells := operationCells s.cfg op s.ctx s.mem free
  if outputFree op s then freedCells free op s cells else cells

/-- The operation completes with SUCCESS (40_transform R135, R137). `free` gives the values the spec leaves open. -/
def succeed (free : Nat → Byte) (op : Operation) (s : State) : State :=
  complete .success (operationCount s.cfg op s.ctx)
    { s with mem := s.mem.writeAll (outputCells free op s), draws := s.draws + 1 }

/-- The operation completes with DEVICE_FAILURE: every byte of the regions it writes holds any value
(40_transform R135, R136). -/
def failDevice (free : Nat → Byte) (op : Operation) (s : State) : State :=
  complete .deviceFailure 0
    { s with mem := s.mem.writeAll (freeCells free (writeRegions op s.ctx)), draws := s.draws + 1 }

/-- The operation completes with one of the codes UNSUPPORTED, INVALID_ARGUMENT and CAPACITY_EXCEEDED: it makes no memory
access (40_transform R136). A byte of the regions `rs` it would have written holds any value all the same if another
agent stored to it since START (20_memory R93). -/
def turnAway (free : Nat → Byte) (k : StatusCode) (rs : List Region) (s : State) : State :=
  complete k 0 { s with mem := s.mem.writeAll (storedCells free rs s), draws := s.draws + 1 }

/-- The course of instruction `i`, which converts as `op` says, in the order of 60_exceptions R302: SUPPORTED
(40_transform R132), arguments (R133), capacity (R134), then execution or a device failure (R135). Buffers on addresses
with read side effects are refused (20_memory R66). DESIGN CHOICE: the refusal falls here, at the core's turn (log 13). -/
def runOperation (i : Instr) (op : Operation) (s : State) : Host.Outcome State Fault Refusal :=
  if i ∉ s.cfg.supported then .next (turnAway (Config.freeByte s.draws) .unsupported (writeRegions op s.ctx) s)
  else if invalidArgument s.cfg op s.ctx then
    .next (turnAway (Config.freeByte s.draws) .invalidArgument (writeRegions op s.ctx) s)
  else if capacityExceeded s.cfg op s.ctx then
    .next (turnAway (Config.freeByte s.draws) .capacityExceeded (writeRegions op s.ctx) s)
  else if onSideEffects s.cfg op s.ctx then .refused .sideEffectBuffer
  else if s.deviceFault then .next (failDevice (Config.freeByte s.draws) op s)
  else .next (succeed (Config.freeByte s.draws) op s)

end Sys2Proof.Machine
end

