-- ==== Sys2Proof/Machine/DataChannel.lean ====
section
/-! DEFINITION. The meanings of the two data-channel operations (43_data_channel R285, R290), whose sample types are the
parameters EMBED_TYPE and EXTRACT_TYPE. -/

namespace Sys2Proof.Machine

/-- `RGB8_TO_I420_EMBED` (43_data_channel R285). -/
def execRgb8ToI420Embed (flip : Bool) (s : State) : Host.Outcome State Fault Refusal :=
  runOperation (.rgb8ToI420Embed flip) (.embed s.cfg.embedType flip) s

/-- `NV12_TO_RGBA8_EXTRACT` (43_data_channel R290). -/
def execNv12ToRgba8Extract (s : State) : Host.Outcome State Fault Refusal :=
  runOperation .nv12ToRgba8Extract (.extract s.cfg.extractType) s

end Sys2Proof.Machine
end

