-- ==== Sys2Proof/Machine/RgbToYuv.lean ====
section
/-! DEFINITION. The meanings of the twelve RGB to YUV operations (42_rgb_to_yuv R250 to R261). Each is the shared course
of an operation (`runOperation`) over its sample type and layout. -/

namespace Sys2Proof.Machine

/-- `RGB8_TO_I420` (42_rgb_to_yuv R250). -/
def execRgb8ToI420 (s : State) : Host.Outcome State Fault Refusal :=
  runOperation .rgb8ToI420 (.rgbToYuv .rgb8 .i420) s

/-- `RGBF_TO_I420` (42_rgb_to_yuv R251). -/
def execRgbfToI420 (s : State) : Host.Outcome State Fault Refusal :=
  runOperation .rgbfToI420 (.rgbToYuv .rgbf .i420) s

/-- `RGBA8_TO_I420` (42_rgb_to_yuv R252). -/
def execRgba8ToI420 (s : State) : Host.Outcome State Fault Refusal :=
  runOperation .rgba8ToI420 (.rgbToYuv .rgba8 .i420) s

/-- `RGBAF_TO_I420` (42_rgb_to_yuv R253). -/
def execRgbafToI420 (s : State) : Host.Outcome State Fault Refusal :=
  runOperation .rgbafToI420 (.rgbToYuv .rgbaf .i420) s

/-- `RGB8_TO_YV12` (42_rgb_to_yuv R254). -/
def execRgb8ToYv12 (s : State) : Host.Outcome State Fault Refusal :=
  runOperation .rgb8ToYv12 (.rgbToYuv .rgb8 .yv12) s

/-- `RGBF_TO_YV12` (42_rgb_to_yuv R255). -/
def execRgbfToYv12 (s : State) : Host.Outcome State Fault Refusal :=
  runOperation .rgbfToYv12 (.rgbToYuv .rgbf .yv12) s

/-- `RGBA8_TO_YV12` (42_rgb_to_yuv R256). -/
def execRgba8ToYv12 (s : State) : Host.Outcome State Fault Refusal :=
  runOperation .rgba8ToYv12 (.rgbToYuv .rgba8 .yv12) s

/-- `RGBAF_TO_YV12` (42_rgb_to_yuv R257). -/
def execRgbafToYv12 (s : State) : Host.Outcome State Fault Refusal :=
  runOperation .rgbafToYv12 (.rgbToYuv .rgbaf .yv12) s

/-- `RGB8_TO_NV12` (42_rgb_to_yuv R258). -/
def execRgb8ToNv12 (s : State) : Host.Outcome State Fault Refusal :=
  runOperation .rgb8ToNv12 (.rgbToYuv .rgb8 .nv12) s

/-- `RGBF_TO_NV12` (42_rgb_to_yuv R259). -/
def execRgbfToNv12 (s : State) : Host.Outcome State Fault Refusal :=
  runOperation .rgbfToNv12 (.rgbToYuv .rgbf .nv12) s

/-- `RGBA8_TO_NV12` (42_rgb_to_yuv R260). -/
def execRgba8ToNv12 (s : State) : Host.Outcome State Fault Refusal :=
  runOperation .rgba8ToNv12 (.rgbToYuv .rgba8 .nv12) s

/-- `RGBAF_TO_NV12` (42_rgb_to_yuv R261). -/
def execRgbafToNv12 (s : State) : Host.Outcome State Fault Refusal :=
  runOperation .rgbafToNv12 (.rgbToYuv .rgbaf .nv12) s

end Sys2Proof.Machine
end

