-- ==== Sys2Proof/Machine/YuvToRgb.lean ====
section
/-! DEFINITION. The meanings of the 24 YUV to RGB operations (41_yuv_to_rgb R210 to R233). Each is the shared course of an
operation (`runOperation`) over its layout and sample type. -/

namespace Sys2Proof.Machine

/-- `I420_TO_RGB8` (41_yuv_to_rgb R210). -/
def execI420ToRgb8 (s : State) : Host.Outcome State Fault Refusal :=
  runOperation .i420ToRgb8 (.yuvToRgb (.sub420 .i420) .rgb8) s

/-- `I420_TO_RGBF` (41_yuv_to_rgb R211). -/
def execI420ToRgbf (s : State) : Host.Outcome State Fault Refusal :=
  runOperation .i420ToRgbf (.yuvToRgb (.sub420 .i420) .rgbf) s

/-- `I420_TO_RGBA8` (41_yuv_to_rgb R212). -/
def execI420ToRgba8 (s : State) : Host.Outcome State Fault Refusal :=
  runOperation .i420ToRgba8 (.yuvToRgb (.sub420 .i420) .rgba8) s

/-- `I420_TO_RGBAF` (41_yuv_to_rgb R213). -/
def execI420ToRgbaf (s : State) : Host.Outcome State Fault Refusal :=
  runOperation .i420ToRgbaf (.yuvToRgb (.sub420 .i420) .rgbaf) s

/-- `YV12_TO_RGB8` (41_yuv_to_rgb R214). -/
def execYv12ToRgb8 (s : State) : Host.Outcome State Fault Refusal :=
  runOperation .yv12ToRgb8 (.yuvToRgb (.sub420 .yv12) .rgb8) s

/-- `YV12_TO_RGBF` (41_yuv_to_rgb R215). -/
def execYv12ToRgbf (s : State) : Host.Outcome State Fault Refusal :=
  runOperation .yv12ToRgbf (.yuvToRgb (.sub420 .yv12) .rgbf) s

/-- `YV12_TO_RGBA8` (41_yuv_to_rgb R216). -/
def execYv12ToRgba8 (s : State) : Host.Outcome State Fault Refusal :=
  runOperation .yv12ToRgba8 (.yuvToRgb (.sub420 .yv12) .rgba8) s

/-- `YV12_TO_RGBAF` (41_yuv_to_rgb R217). -/
def execYv12ToRgbaf (s : State) : Host.Outcome State Fault Refusal :=
  runOperation .yv12ToRgbaf (.yuvToRgb (.sub420 .yv12) .rgbaf) s

/-- `NV12_TO_RGB8` (41_yuv_to_rgb R218). -/
def execNv12ToRgb8 (s : State) : Host.Outcome State Fault Refusal :=
  runOperation .nv12ToRgb8 (.yuvToRgb (.sub420 .nv12) .rgb8) s

/-- `NV12_TO_RGBF` (41_yuv_to_rgb R219). -/
def execNv12ToRgbf (s : State) : Host.Outcome State Fault Refusal :=
  runOperation .nv12ToRgbf (.yuvToRgb (.sub420 .nv12) .rgbf) s

/-- `NV12_TO_RGBA8` (41_yuv_to_rgb R220). -/
def execNv12ToRgba8 (s : State) : Host.Outcome State Fault Refusal :=
  runOperation .nv12ToRgba8 (.yuvToRgb (.sub420 .nv12) .rgba8) s

/-- `NV12_TO_RGBAF` (41_yuv_to_rgb R221). -/
def execNv12ToRgbaf (s : State) : Host.Outcome State Fault Refusal :=
  runOperation .nv12ToRgbaf (.yuvToRgb (.sub420 .nv12) .rgbaf) s

/-- `YUYV_TO_RGB8` (41_yuv_to_rgb R222). -/
def execYuyvToRgb8 (s : State) : Host.Outcome State Fault Refusal :=
  runOperation .yuyvToRgb8 (.yuvToRgb (.packed .yuyv) .rgb8) s

/-- `YUYV_TO_RGBF` (41_yuv_to_rgb R223). -/
def execYuyvToRgbf (s : State) : Host.Outcome State Fault Refusal :=
  runOperation .yuyvToRgbf (.yuvToRgb (.packed .yuyv) .rgbf) s

/-- `YUYV_TO_RGBA8` (41_yuv_to_rgb R224). -/
def execYuyvToRgba8 (s : State) : Host.Outcome State Fault Refusal :=
  runOperation .yuyvToRgba8 (.yuvToRgb (.packed .yuyv) .rgba8) s

/-- `YUYV_TO_RGBAF` (41_yuv_to_rgb R225). -/
def execYuyvToRgbaf (s : State) : Host.Outcome State Fault Refusal :=
  runOperation .yuyvToRgbaf (.yuvToRgb (.packed .yuyv) .rgbaf) s

/-- `YVYU_TO_RGB8` (41_yuv_to_rgb R226). -/
def execYvyuToRgb8 (s : State) : Host.Outcome State Fault Refusal :=
  runOperation .yvyuToRgb8 (.yuvToRgb (.packed .yvyu) .rgb8) s

/-- `YVYU_TO_RGBF` (41_yuv_to_rgb R227). -/
def execYvyuToRgbf (s : State) : Host.Outcome State Fault Refusal :=
  runOperation .yvyuToRgbf (.yuvToRgb (.packed .yvyu) .rgbf) s

/-- `YVYU_TO_RGBA8` (41_yuv_to_rgb R228). -/
def execYvyuToRgba8 (s : State) : Host.Outcome State Fault Refusal :=
  runOperation .yvyuToRgba8 (.yuvToRgb (.packed .yvyu) .rgba8) s

/-- `YVYU_TO_RGBAF` (41_yuv_to_rgb R229). -/
def execYvyuToRgbaf (s : State) : Host.Outcome State Fault Refusal :=
  runOperation .yvyuToRgbaf (.yuvToRgb (.packed .yvyu) .rgbaf) s

/-- `UYVY_TO_RGB8` (41_yuv_to_rgb R230). -/
def execUyvyToRgb8 (s : State) : Host.Outcome State Fault Refusal :=
  runOperation .uyvyToRgb8 (.yuvToRgb (.packed .uyvy) .rgb8) s

/-- `UYVY_TO_RGBF` (41_yuv_to_rgb R231). -/
def execUyvyToRgbf (s : State) : Host.Outcome State Fault Refusal :=
  runOperation .uyvyToRgbf (.yuvToRgb (.packed .uyvy) .rgbf) s

/-- `UYVY_TO_RGBA8` (41_yuv_to_rgb R232). -/
def execUyvyToRgba8 (s : State) : Host.Outcome State Fault Refusal :=
  runOperation .uyvyToRgba8 (.yuvToRgb (.packed .uyvy) .rgba8) s

/-- `UYVY_TO_RGBAF` (41_yuv_to_rgb R233). -/
def execUyvyToRgbaf (s : State) : Host.Outcome State Fault Refusal :=
  runOperation .uyvyToRgbaf (.yuvToRgb (.packed .uyvy) .rgbaf) s

end Sys2Proof.Machine
end

