-- ==== Sys2Proof/Machine/Dispatch.lean ====
section
/-! DEFINITION. One arm per instruction. -/

namespace Sys2Proof.Machine

def exec (i : Instr) (s : State) : Host.Outcome State Fault Refusal :=
  match i with
  | .i420ToRgb8 => Sys2Proof.Machine.execI420ToRgb8 s
  | .i420ToRgbf => Sys2Proof.Machine.execI420ToRgbf s
  | .i420ToRgba8 => Sys2Proof.Machine.execI420ToRgba8 s
  | .i420ToRgbaf => Sys2Proof.Machine.execI420ToRgbaf s
  | .yv12ToRgb8 => Sys2Proof.Machine.execYv12ToRgb8 s
  | .yv12ToRgbf => Sys2Proof.Machine.execYv12ToRgbf s
  | .yv12ToRgba8 => Sys2Proof.Machine.execYv12ToRgba8 s
  | .yv12ToRgbaf => Sys2Proof.Machine.execYv12ToRgbaf s
  | .nv12ToRgb8 => Sys2Proof.Machine.execNv12ToRgb8 s
  | .nv12ToRgbf => Sys2Proof.Machine.execNv12ToRgbf s
  | .nv12ToRgba8 => Sys2Proof.Machine.execNv12ToRgba8 s
  | .nv12ToRgbaf => Sys2Proof.Machine.execNv12ToRgbaf s
  | .yuyvToRgb8 => Sys2Proof.Machine.execYuyvToRgb8 s
  | .yuyvToRgbf => Sys2Proof.Machine.execYuyvToRgbf s
  | .yuyvToRgba8 => Sys2Proof.Machine.execYuyvToRgba8 s
  | .yuyvToRgbaf => Sys2Proof.Machine.execYuyvToRgbaf s
  | .yvyuToRgb8 => Sys2Proof.Machine.execYvyuToRgb8 s
  | .yvyuToRgbf => Sys2Proof.Machine.execYvyuToRgbf s
  | .yvyuToRgba8 => Sys2Proof.Machine.execYvyuToRgba8 s
  | .yvyuToRgbaf => Sys2Proof.Machine.execYvyuToRgbaf s
  | .uyvyToRgb8 => Sys2Proof.Machine.execUyvyToRgb8 s
  | .uyvyToRgbf => Sys2Proof.Machine.execUyvyToRgbf s
  | .uyvyToRgba8 => Sys2Proof.Machine.execUyvyToRgba8 s
  | .uyvyToRgbaf => Sys2Proof.Machine.execUyvyToRgbaf s
  | .rgb8ToI420 => Sys2Proof.Machine.execRgb8ToI420 s
  | .rgbfToI420 => Sys2Proof.Machine.execRgbfToI420 s
  | .rgba8ToI420 => Sys2Proof.Machine.execRgba8ToI420 s
  | .rgbafToI420 => Sys2Proof.Machine.execRgbafToI420 s
  | .rgb8ToYv12 => Sys2Proof.Machine.execRgb8ToYv12 s
  | .rgbfToYv12 => Sys2Proof.Machine.execRgbfToYv12 s
  | .rgba8ToYv12 => Sys2Proof.Machine.execRgba8ToYv12 s
  | .rgbafToYv12 => Sys2Proof.Machine.execRgbafToYv12 s
  | .rgb8ToNv12 => Sys2Proof.Machine.execRgb8ToNv12 s
  | .rgbfToNv12 => Sys2Proof.Machine.execRgbfToNv12 s
  | .rgba8ToNv12 => Sys2Proof.Machine.execRgba8ToNv12 s
  | .rgbafToNv12 => Sys2Proof.Machine.execRgbafToNv12 s
  | .rgb8ToI420Embed flip => Sys2Proof.Machine.execRgb8ToI420Embed flip s
  | .nv12ToRgba8Extract => Sys2Proof.Machine.execNv12ToRgba8Extract s

end Sys2Proof.Machine
end

