-- ==== Sys2Proof/Machine/Agents.lean ====
section
/-! DEFINITION. What a step does: the core's turn, and each act of the host and the platform. -/

namespace Sys2Proof.Machine

/-- The core's turn: idle it waits for a START (70_reset_and_hazards R330). BUSY it judges the latched command word and
runs the operation it names, or completes with UNSUPPORTED (40_transform R132). -/
def coreTurn (s : State) : Host.Outcome State Fault Refusal :=
  match s.phase with
  | .idle => .next s
  | .busy =>
    match decode s.cfg s.ctx.cmd with
    | .ok i => exec i s
    | .error _ => .next (turnAway (Config.freeByte s.draws) .unsupported (contextRegions s.ctx) s)

/-- The platform raises a device failure, which counts while an operation runs (40_transform R135; log 6). -/
def raiseDeviceFault (s : State) : State := if s.phase = .busy then { s with deviceFault := true } else s

/-- A bus read. One that touches no byte of the register block is not the core's and changes nothing (log 12). -/
def busRead (a : BusAddr) (bytes : Nat) (s : State) : Host.Outcome State Fault Refusal :=
  if selected s.cfg a bytes then
    if fits s.cfg a bytes then .next { s with rdata := readAt s a } else .refused .misfitRegisterAccess
  else .next s

/-- A bus write. One that touches no byte of the register block is not the core's and changes nothing (log 12). -/
def busWrite (a : BusAddr) (bytes : Nat) (v : Word) (s : State) : Host.Outcome State Fault Refusal :=
  if selected s.cfg a bytes then
    if fits s.cfg a bytes then .next (writeAt a v s) else .refused .misfitRegisterAccess
  else .next s

/-- `POLL` (30_encoding R120), in the state whose inputs are those after it: a read that matches ends it, a read that
does not leaves it to be repeated and gives the core its turn (log 20). -/
def poll (a : BusAddr) (mask value : Word) (s : State) : Host.Outcome State Fault Refusal :=
  if fits s.cfg a 4 then
    if readAt s a &&& mask = value then .next { s with rdata := readAt s a }
    else coreTurn { s with rdata := readAt s a, inputs := .poll a mask value :: s.inputs }
  else .refused .misfitRegisterAccess

/-- A store by the host (20_memory R93). It reaches the memory space only, never the register block:
20_memory R60 leaves to the platform whether BASE lies inside the memory space. DESIGN CHOICE: it does not (log 26). -/
def store (a : Addr) (bytes : List Byte) (s : State) : Host.Outcome State Fault Refusal :=
  if inSpace s.cfg a bytes.length then .next (hostStore a.toNat bytes s) else .fault .noSuchAddress

/-- A host load (20_memory R90), of the memory space only (log 26). -/
def load (a : Addr) (s : State) : Host.Outcome State Fault Refusal :=
  if inSpace s.cfg a 1 then .next (hostLoad a.toNat s) else .fault .noSuchAddress

/-- A store by an agent that the host's cache does not serve (20_memory R93, 60_exceptions R319; log 24). -/
def storeByAgent (a : Addr) (bytes : List Byte) (s : State) : Host.Outcome State Fault Refusal :=
  if inSpace s.cfg a bytes.length then .next (agentStore a.toNat bytes s) else .fault .noSuchAddress

/-- A load by such an agent (20_memory R90). -/
def loadByAgent (a : Addr) (s : State) : Host.Outcome State Fault Refusal :=
  if inSpace s.cfg a 1 then .next (agentLoad a.toNat s) else .fault .noSuchAddress

/-- One input, in the state whose inputs are those after it. -/
def deliver (e : Input) (s : State) : Host.Outcome State Fault Refusal :=
  match e with
  | .core => coreTurn s
  | .reset => .next (resetCore s)
  | .deviceFault => .next (raiseDeviceFault s)
  | .busRead a n => busRead a n s
  | .busWrite a n v => busWrite a n v s
  | .poll a mask v => poll a mask v s
  | .store a bytes => store a bytes s
  | .load a => load a s
  | .agentStore a bytes => storeByAgent a bytes s
  | .agentLoad a => loadByAgent a s
  | .writeBack r => .next (writeBackRegion r s)
  | .discard r => .next (discardRegion r s)

/-- One step: the next input happens, and with none left the core takes its turn (40_transform R131's weak fairness;
log 3). -/
def advance (s : State) : Host.Outcome State Fault Refusal :=
  match s.inputs with
  | [] => coreTurn s
  | e :: rest => deliver e { s with inputs := rest }

/-- The host has written `w` to CMD and written START to an idle core, and the core's turn is next (30_encoding R121's
RUN; log 11). -/
def loadCommand (w : Word) (s : State) : State :=
  let t := start { s with cmd := w, phase := .idle }
  { t with inputs := .core :: t.inputs }

end Sys2Proof.Machine
end

