-- ==== Sys2Proof/Machine/HostProgram.lean ====
section
/-! DEFINITION. The host macros of 30_encoding R121, as the inputs they expand to. -/

namespace Sys2Proof.Machine

/-- The bus address of a register: BASE + offset(REG) (30_encoding R120). -/
def regAddr (c : Config) (r : Reg) : BusAddr := c.base + BitVec.ofNat 64 (regOffset r)

/-- `W32 <REG>, <value>` (30_encoding R120). -/
def w32 (c : Config) (r : Reg) (v : Word) : Input := .busWrite (regAddr c r) 4 v

/-- `R32 <REG>` (30_encoding R120). Its result is `State.rdata`. -/
def r32 (c : Config) (r : Reg) : Input := .busRead (regAddr c r) 4

/-- `SETADDR SRC, a` (30_encoding R121). -/
def setSrc (c : Config) (a : Addr) : List Input :=
  [w32 c .srcLo (a.extractLsb' 0 32), w32 c .srcHi (a.extractLsb' 32 32)]

/-- `SETADDR DST, a` (30_encoding R121). -/
def setDst (c : Config) (a : Addr) : List Input :=
  [w32 c .dstLo (a.extractLsb' 0 32), w32 c .dstHi (a.extractLsb' 32 32)]

/-- `SETADDR AUX, a` (30_encoding R121). -/
def setAux (c : Config) (a : Addr) : List Input :=
  [w32 c .auxLo (a.extractLsb' 0 32), w32 c .auxHi (a.extractLsb' 32 32)]

/-- `RUN op`, with the IRQ_EN the program keeps (30_encoding R121). -/
def run (c : Config) (i : Instr) (irqEn : Bool) : List Input :=
  [w32 c .cmd (encode c i), w32 c .ctrl (1 ||| (bitWord irqEn <<< 1))]

/-- `WAIT` (30_encoding R121). -/
def wait (c : Config) : List Input := [.poll (regAddr c .status) 2 2]

/-- `RESULT` (30_encoding R121): the STATUS read whose bits 6:4 are the code. -/
def result (c : Config) : List Input := [r32 c .status]

/-- The code in a STATUS word, `c = s[6:4]` (30_encoding R121). -/
def resultCode (status : Word) : BitVec 3 := status.extractLsb' 4 3

/-- `ACK` (30_encoding R121). -/
def ack (c : Config) : List Input := [w32 c .status 2]

/-- `CONVERT op, src=a, dst=b, w=W, h=H` (30_encoding R121). -/
def convert (c : Config) (i : Instr) (src dst : Addr) (w h : Word) (irqEn : Bool) : List Input :=
  setSrc c src ++ setDst c dst ++ [w32 c .width w, w32 c .height h] ++ run c i irqEn ++ wait c ++ result c ++ ack c

/-- `CONVERT` of a data-channel operation, with `aux=p, len=n` (30_encoding R121). -/
def convertAux (c : Config) (i : Instr) (src dst : Addr) (w h : Word) (aux : Addr) (len : Word) (irqEn : Bool) :
    List Input :=
  setSrc c src ++ setDst c dst ++ [w32 c .width w, w32 c .height h] ++ setAux c aux ++ [w32 c .auxLen len]
    ++ run c i irqEn ++ wait c ++ result c ++ ack c

end Sys2Proof.Machine
end

