-- ==== Sys2Proof/Safety.lean ====
section
/-! DEFINITION. What counts as a safe run, in the terms statements use: the states the machine keeps to, and outcomes that
are not stops. -/

namespace Sys2Proof.Machine

/-- Every listed byte lies in the memory space of 2^ADDR_W bytes (20_memory R60). -/
def Memory.within (m : Memory) (c : Config) : Prop := ∀ p ∈ m, p.1 < 2 ^ c.addrW

/-- While BUSY, DONE, CODE and AUX_COUNT read 0 (40_transform R130, 10_state R27). -/
def State.busyClear (s : State) : Prop :=
  s.phase = .busy → s.done = false ∧ s.code = .success ∧ s.auxCount = 0

/-- A code other than SUCCESS leaves AUX_COUNT 0 (10_state R33). -/
def State.countClear (s : State) : Prop := s.code ≠ .success → s.auxCount = 0

/-- What every step keeps: memory in its canonical form and inside the memory space, the host's cached addresses inside
it, and the status fields consistent. -/
def Inv (s : State) : Prop :=
  s.mem.wf = true ∧ s.mem.within s.cfg ∧ (∀ l ∈ s.hostCache, l.addr < 2 ^ s.cfg.addrW) ∧ s.busyClear ∧ s.countClear

/-- The operation of an instruction passes the checks of 40_transform R132 to R134, and its buffers are ordinary memory
(20_memory R66): the core executes it. -/
def Executes (i : Instr) (op : Operation) (s : State) : Prop :=
  i ∈ s.cfg.supported ∧ invalidArgument s.cfg op s.ctx = false ∧ capacityExceeded s.cfg op s.ctx = false ∧
    onSideEffects s.cfg op s.ctx = false

/-- The operation's output is what its rule says (40_transform R137): no overlap (20_memory R94), no store by another
agent to its regions (R93). -/
def Undisturbed (op : Operation) (s : State) : Prop := outputFree op s = false

end Sys2Proof.Machine
end

