-- ==== Sys2Proof/Certificates/Slice0/Obligations.lean ====
section
/-! DEFINITION. The statements about the model, and the few words they share. -/

namespace Sys2Proof.Machine

/-- The YUV to RGB operations with 8-bit channels (41_yuv_to_rgb). -/
def yuvToRgb8Rows : List (Instr × YuvLayout × RgbType) :=
  [(.i420ToRgb8, .sub420 .i420, .rgb8), (.i420ToRgba8, .sub420 .i420, .rgba8),
   (.yv12ToRgb8, .sub420 .yv12, .rgb8), (.yv12ToRgba8, .sub420 .yv12, .rgba8),
   (.nv12ToRgb8, .sub420 .nv12, .rgb8), (.nv12ToRgba8, .sub420 .nv12, .rgba8),
   (.yuyvToRgb8, .packed .yuyv, .rgb8), (.yuyvToRgba8, .packed .yuyv, .rgba8),
   (.yvyuToRgb8, .packed .yvyu, .rgb8), (.yvyuToRgba8, .packed .yvyu, .rgba8),
   (.uyvyToRgb8, .packed .uyvy, .rgb8), (.uyvyToRgba8, .packed .uyvy, .rgba8)]

/-- The YUV to RGB operations with binary32 channels (41_yuv_to_rgb). -/
def yuvToRgbFloatRows : List (Instr × YuvLayout × RgbType) :=
  [(.i420ToRgbf, .sub420 .i420, .rgbf), (.i420ToRgbaf, .sub420 .i420, .rgbaf),
   (.yv12ToRgbf, .sub420 .yv12, .rgbf), (.yv12ToRgbaf, .sub420 .yv12, .rgbaf),
   (.nv12ToRgbf, .sub420 .nv12, .rgbf), (.nv12ToRgbaf, .sub420 .nv12, .rgbaf),
   (.yuyvToRgbf, .packed .yuyv, .rgbf), (.yuyvToRgbaf, .packed .yuyv, .rgbaf),
   (.yvyuToRgbf, .packed .yvyu, .rgbf), (.yvyuToRgbaf, .packed .yvyu, .rgbaf),
   (.uyvyToRgbf, .packed .uyvy, .rgbf), (.uyvyToRgbaf, .packed .uyvy, .rgbaf)]

/-- The RGB to YUV operations (42_rgb_to_yuv). -/
def rgbToYuvRows : List (Instr × RgbType × Sub420) :=
  [(.rgb8ToI420, .rgb8, .i420), (.rgbfToI420, .rgbf, .i420),
   (.rgba8ToI420, .rgba8, .i420), (.rgbafToI420, .rgbaf, .i420),
   (.rgb8ToYv12, .rgb8, .yv12), (.rgbfToYv12, .rgbf, .yv12),
   (.rgba8ToYv12, .rgba8, .yv12), (.rgbafToYv12, .rgbaf, .yv12),
   (.rgb8ToNv12, .rgb8, .nv12), (.rgbfToNv12, .rgbf, .nv12),
   (.rgba8ToNv12, .rgba8, .nv12), (.rgbafToNv12, .rgbaf, .nv12)]

/-- An instruction executes without a device failure, its output is its rule's, and memory is in its canonical form. -/
def Ready (i : Instr) (op : Operation) (s : State) : Prop :=
  Executes i op s ∧ s.deviceFault = false ∧ Undisturbed op s ∧ s.mem.wf = true

/-- `t` is `s` after a completion with code `k` and count `n` (40_transform R131): nothing else changed but memory and
the count of free values. That the latched context keeps its value while IDLE is the model's choice (log 7). -/
def Completed (k : StatusCode) (n : Nat) (s t : State) : Prop :=
  t = { s with code := k, auxCount := BitVec.ofNat 32 n, phase := .idle, done := true, touched := []
               deviceFault := false, mem := t.mem, draws := t.draws }

/-- The byte at `a` lies in some regions and another agent stored to it since START, so R93 leaves it at any value
(20_memory R93; log 16). -/
def StoredTo (rs : List Region) (s : State) (a : Nat) : Prop :=
  a ∈ s.touched ∧ inRegions rs a = true ∧ a < 2 ^ s.cfg.addrW

/-- `t` is `s` after a completion with code `k` by an operation that accesses no memory (40_transform R136): memory is the
same but for the bytes of the regions `rs` that another agent stored to meanwhile, which hold the free value of their
address (20_memory R93; logs 5 and 16). -/
def TurnedAway (k : StatusCode) (rs : List Region) (s t : State) : Prop :=
  Completed k 0 s t ∧ ((∀ a, ¬ StoredTo rs s a) → t.mem = s.mem) ∧
    (∀ a, ¬ StoredTo rs s a → t.mem.read a = s.mem.read a) ∧
    (s.mem.wf = true → ∀ a, StoredTo rs s a → t.mem.read a = Config.freeByte s.draws a)

/-- Every byte outside some regions reads as before. -/
def KeptOutside (rs : List Region) (s t : State) : Prop := ∀ a, inRegions rs a = false → t.mem.read a = s.mem.read a

/-- The channel at address `a` of a buffer of type `t` holds the quantised `q` (40_transform R156). -/
def ChannelHolds (f : FloatScale) (t : RgbType) (m : Memory) (a : Nat) (q : ℚ) : Prop :=
  if bytesPerChannel t = 1 then m.read a = q8 q else m.read32 a = qf f q

/-- The alpha channel at address `a` of a buffer of type `t` holds opaque full scale (40_transform R156). -/
def AlphaHolds (f : FloatScale) (t : RgbType) (m : Memory) (a : Nat) : Prop :=
  if bytesPerChannel t = 1 then m.read a = 255 else m.read32 a = rne32 (scaleValue f)

/-- The quantised mean of four exact samples (40_transform R153). -/
def mean4 (a b c d : ℚ) : Byte := q8 ((a + b + c + d) / 4)

/-- The exact Y, U and V of the pixel (px, py) of the RGB source, when its channels are finite. -/
def sourceYuv (s : State) (t : RgbType) (px py : Nat) : Option YuvExact :=
  (loadRgb s.cfg t s.ctx s.mem s.ctx.src.toNat px py).map (enc s.cfg.menc)

end Sys2Proof.Machine

open Sys2Proof Sys2Proof.Machine

/-- Words written out bit by bit from the fields of the command word, one or more of each family, decode to the
instructions they stand for under the default parameters. (30_encoding.md section 2, R110) -/
def Obligations.TableWordsDecode : Prop :=
  decode Config.default 0b00000000000000000000000000000000 = .ok .i420ToRgb8 ∧
  decode Config.default 0b00000000000000000000000000011101 = .ok .uyvyToRgbaf ∧
  decode Config.default 0b00000000000000000000000000001001 = .ok .yv12ToRgbf ∧
  decode Config.default 0b00000000000000000000000000110010 = .ok .rgba8ToNv12 ∧
  decode Config.default 0b00000000000000000000000011100000 = .ok (.rgb8ToI420Embed true) ∧
  decode Config.default 0b00000000000000000000000001010010 = .ok .nv12ToRgba8Extract

/-- For every instruction and all parameters, the decoder reads the instruction from the command word the encoder
writes, the FLIP bit and the moved data-channel words included. (30_encoding.md section 2, R100, R110) -/
def Obligations.DecodeOfEncode : Prop :=
  ∀ (c : Config) (i : Instr), decode c (encode c i) = .ok i

/-- For every 32-bit word and all parameters, if the decoder reads an instruction from the word, the encoder gives the
word back: no two words name one operation and no bit is ignored. (30_encoding.md section 2, R103, R110) -/
def Obligations.EncodeOfDecode : Prop :=
  ∀ (c : Config) (w : Word) (i : Instr), decode c w = .ok i → encode c i = w

/-- A word decodes exactly when its reserved bits are 0 and its fields are those R110 gives for the four shapes: YUV
to RGB with YFMT 0..5, RGB to YUV with YFMT 0..2, the embed word, the extract word. (30_encoding.md section 2, R110,
R112) -/
def Obligations.DecodableWordsInFields : Prop :=
  ∀ (c : Config) (w : Word), (∃ i, decode c w = .ok i) ↔
    w.extractLsb' 8 24 = 0 ∧
      ((w.getLsbD 5 = false ∧ w.getLsbD 6 = false ∧ w.getLsbD 7 = false ∧ (w.extractLsb' 0 3).toNat ≤ 5) ∨
       (w.getLsbD 5 = true ∧ w.getLsbD 6 = false ∧ w.getLsbD 7 = false ∧ (w.extractLsb' 0 3).toNat ≤ 2) ∨
       (w.getLsbD 5 = true ∧ w.getLsbD 6 = true ∧ w.extractLsb' 0 3 = 0 ∧
          rgbTypeOfCode (w.extractLsb' 3 2) = c.embedType) ∨
       (w.getLsbD 5 = false ∧ w.getLsbD 6 = true ∧ w.getLsbD 7 = false ∧ w.extractLsb' 0 3 = 2 ∧
          rgbTypeOfCode (w.extractLsb' 3 2) = c.extractType))

/-- When the core is BUSY and the latched command word decodes to an instruction, a step with no input left, or with
the core's turn as the next input, is exec of that instruction (the turn taken off the inputs). That the core moves
when no input is left is the model's choice (log 3). (40_transform.md section 1, R132, 10_state.md R41) -/
def Obligations.StepRunsTheLatchedInstruction : Prop :=
  ∀ (s : State) (i : Instr), s.phase = .busy → decode s.cfg s.ctx.cmd = .ok i →
    (s.inputs = [] → step s = exec i s) ∧
      (∀ rest, s.inputs = .core :: rest → step s = exec i { s with inputs := rest })

/-- After withFetchWord places the word of an instruction, the next step is exec of that instruction on the state
START leaves: the registers latched, with CMD holding the word. How a command comes to be loaded is the model's choice
(log 11). (30_encoding.md section 3, R121, 40_transform.md R130) -/
def Obligations.LoadedWordRunsNext : Prop :=
  ∀ (s : State) (i : Instr), step (s.withFetchWord 32 (encode s.cfg i).toNat) =
    exec i { s with
      cmd := encode s.cfg i, phase := .busy, done := false, code := .success, auxCount := 0, touched := []
      deviceFault := false
      ctx := { cmd := encode s.cfg i, w := s.width, h := s.height, auxlen := s.auxLen, src := s.srcHi ++ s.srcLo
               dst := s.dstHi ++ s.dstLo, aux := s.auxHi ++ s.auxLo } }

/-- First after START: when the latched word names no operation of SUPPORTED, the core's turn completes with
UNSUPPORTED, count 0 and no memory access of its own. Memory is as before, but for bytes of the regions it would have
written to which another agent stored since START: those hold the free value of their address (R93, logs 5 and 16).
Otherwise the core's turn is exec of the one operation whose command word under the parameters is the latched one.
That the core moves when no input is left, and that the latched context is kept, are the model's choices (logs 3 and
7), and for a word that names no operation the regions are those its fields give (log 8). (40_transform.md R132, R136,
20_memory.md R93) -/
def Obligations.IllegalWordCompletesUnsupported : Prop :=
  ∀ s : State, s.phase = .busy → s.inputs = [] →
    ((∀ i ∈ s.cfg.supported, encode s.cfg i ≠ s.ctx.cmd) →
      ∃ t, step s = .next t ∧ TurnedAway .unsupported (contextRegions s.ctx) s t) ∧
    (∀ i ∈ s.cfg.supported, encode s.cfg i = s.ctx.cmd → step s = exec i s)

/-- For every supported instruction, if any of the items (a) to (g) of R133 holds of the latched context, the
operation completes with INVALID_ARGUMENT and count 0. Memory is as before, but for bytes of the regions it would have
written to which another agent stored since START: those hold the free value of their address (R93, logs 5 and 16).
That the latched context is kept is the model's choice (log 7). (40_transform.md R133, R136, 20_memory.md R93) -/
def Obligations.InvalidArgumentFails : Prop :=
  ∀ (i : Instr) (s : State), i ∈ s.cfg.supported →
    (s.ctx.src = 0 ∨ s.ctx.dst = 0 ∨
     (usesAux (operationOf s.cfg i) = true ∧ s.ctx.aux = 0) ∨
     s.ctx.w = 0 ∨ s.ctx.h = 0 ∨
     s.ctx.w.toNat % 2 = 1 ∨ s.ctx.h.toNat % 2 = 1 ∨
     2 ^ s.cfg.addrW ≤ s.ctx.src.toNat ∨ 2 ^ s.cfg.addrW ≤ s.ctx.dst.toNat ∨
     (usesAux (operationOf s.cfg i) = true ∧ 2 ^ s.cfg.addrW ≤ s.ctx.aux.toNat) ∨
     (bytesPerChannel (rgbBuffer (operationOf s.cfg i) s.ctx).1 = 4 ∧
        (rgbBuffer (operationOf s.cfg i) s.ctx).2 % 4 ≠ 0) ∨
     2 ^ s.cfg.addrW < s.ctx.src.toNat + (srcRegion (operationOf s.cfg i) s.ctx).size ∨
     2 ^ s.cfg.addrW < s.ctx.dst.toNat + (dstRegion (operationOf s.cfg i) s.ctx).size ∨
     (usesAux (operationOf s.cfg i) = true ∧ 2 ^ s.cfg.addrW < s.ctx.aux.toNat + s.ctx.auxlen.toNat)) →
    ∃ t, exec i s = .next t ∧ TurnedAway .invalidArgument (writeRegions (operationOf s.cfg i) s.ctx) s t

/-- For the embed (either FLIP) and the extract, supported, with valid arguments, under CAP_POLICY = FAIL: a length
above (NC // RED) // 8 bytes completes with CAPACITY_EXCEEDED and count 0. Memory is as before, but for bytes of the
regions it would have written to which another agent stored since START: those hold the free value of their address
(R93, logs 5 and 16). That the latched context is kept is the model's choice (log 7). Under TRUNCATE, or with a length
within capacity, no next state of the instruction has that code. (43_data_channel.md section 1, R280, R273,
20_memory.md R93) -/
def Obligations.CapacityPolicyFail : Prop :=
  ∀ (i : Instr) (s : State), i ∈ [Instr.rgb8ToI420Embed false, .rgb8ToI420Embed true, .nv12ToRgba8Extract] →
    i ∈ s.cfg.supported → invalidArgument s.cfg (operationOf s.cfg i) s.ctx = false →
    (s.cfg.capPolicy = .fail →
      (s.ctx.w.toNat / 2) * (s.ctx.h.toNat / 2) / s.cfg.red / 8 < s.ctx.auxlen.toNat →
      ∃ t, exec i s = .next t ∧ TurnedAway .capacityExceeded (writeRegions (operationOf s.cfg i) s.ctx) s t) ∧
    (∀ t, s.cfg.capPolicy = .truncate ∨
        s.ctx.auxlen.toNat ≤ (s.ctx.w.toNat / 2) * (s.ctx.h.toNat / 2) / s.cfg.red / 8 →
      exec i s = .next t → t.code ≠ .capacityExceeded)

/-- For every instruction and state with a next state: the code is UNSUPPORTED exactly when the instruction is outside
SUPPORTED; else INVALID_ARGUMENT exactly when a check of R133 fails; else CAPACITY_EXCEEDED exactly when the capacity
check fails; else DEVICE_FAILURE exactly when the run drew one, which in the model is the record an input leaves (the
model's choice, log 6). A latched word that names no operation of SUPPORTED reports UNSUPPORTED whatever the rest of
the context (that the core moves when no input is left is the model's choice, log 3). (60_exceptions.md R302,
40_transform.md R135) -/
def Obligations.ErrorPriority : Prop :=
  (∀ (i : Instr) (s t : State), exec i s = .next t →
    (t.code = .unsupported ↔ i ∉ s.cfg.supported) ∧
    (t.code = .invalidArgument ↔
      i ∈ s.cfg.supported ∧ invalidArgument s.cfg (operationOf s.cfg i) s.ctx = true) ∧
    (t.code = .capacityExceeded ↔
      i ∈ s.cfg.supported ∧ invalidArgument s.cfg (operationOf s.cfg i) s.ctx = false ∧
        capacityExceeded s.cfg (operationOf s.cfg i) s.ctx = true) ∧
    (t.code = .deviceFailure ↔
      i ∈ s.cfg.supported ∧ invalidArgument s.cfg (operationOf s.cfg i) s.ctx = false ∧
        capacityExceeded s.cfg (operationOf s.cfg i) s.ctx = false ∧ s.deviceFault = true)) ∧
  (∀ s : State, s.phase = .busy → s.inputs = [] → (∀ i ∈ s.cfg.supported, encode s.cfg i ≠ s.ctx.cmd) →
    ∃ t, step s = .next t ∧ t.code = .unsupported)

/-- For every instruction: a next state with one of those three codes is the old state with the code, AUX_COUNT 0,
BUSY 0 and DONE 1 (and the model's record of the run cleared), every register as before. Memory is as before, but for
bytes of the regions it would have written to which another agent stored since START: those hold the free value of
their address (R93, logs 5 and 16). That the latched context is kept is the model's choice (log 7). (40_transform.md
R136, 60_exceptions.md R301, R303, 20_memory.md R93) -/
def Obligations.EarlyErrorsTouchNoMemory : Prop :=
  ∀ (i : Instr) (s t : State), exec i s = .next t →
    t.code = .unsupported ∨ t.code = .invalidArgument ∨ t.code = .capacityExceeded →
    TurnedAway t.code (writeRegions (operationOf s.cfg i) s.ctx) s t

/-- For every instruction that executes while a device failure is raised: it completes with DEVICE_FAILURE and count
0, every byte of the destination region, and of an extract's auxiliary region, holds the free value of its address,
and every other byte is as before. That a failure is an input is the model's choice (log 6), the free value is that of
log 5. (40_transform.md R135, R136) -/
def Obligations.DeviceFailureFreesOutput : Prop :=
  ∀ (i : Instr) (s : State), Executes i (operationOf s.cfg i) s → s.deviceFault = true → s.mem.wf = true →
    ∃ t, exec i s = .next t ∧ Completed .deviceFailure 0 s t ∧
      KeptOutside (writeRegions (operationOf s.cfg i) s.ctx) s t ∧
      ∀ a, inRegions (writeRegions (operationOf s.cfg i) s.ctx) a = true →
        t.mem.read a = Config.freeByte s.draws a

/-- An instruction that passes its checks with a buffer on addresses the platform marks as having read side effects
has no meaning: exec answers the refusal of that name. Which addresses those are is a parameter of the model's own
(log 13). (20_memory.md R66) -/
def Obligations.SideEffectBufferRefused : Prop :=
  ∀ (i : Instr) (s : State), i ∈ s.cfg.supported → invalidArgument s.cfg (operationOf s.cfg i) s.ctx = false →
    capacityExceeded s.cfg (operationOf s.cfg i) s.ctx = false →
    onSideEffects s.cfg (operationOf s.cfg i) s.ctx = true → exec i s = .refused .sideEffectBuffer

/-- Each of I420, YV12, NV12, YUYV, YVYU, UYVY to RGB8 and RGBA8, when it executes undisturbed, completes with SUCCESS
and count 0; every pixel's R, G and B bytes are Q8 of Dec of the fetched triple, the alpha byte of RGBA8 is 255, every
byte outside the destination region reads as before, and no register but the status changes. (R200, R156, R150, R154,
R137, R78) -/
def Obligations.YuvToRgb8Converts : Prop :=
  ∀ e ∈ yuvToRgb8Rows, ∀ s : State, Ready e.1 (.yuvToRgb e.2.1 e.2.2) s →
    ∃ t, exec e.1 s = .next t ∧ Completed .success 0 s t ∧
      KeptOutside [dstRegion (.yuvToRgb e.2.1 e.2.2) s.ctx] s t ∧
      ∀ px py, px < s.ctx.w.toNat → py < s.ctx.h.toNat →
        let p := dec s.cfg.mdec (fetch e.2.1 s.ctx s.mem s.ctx.src.toNat px py)
        let a := s.ctx.dst.toNat + (py * s.ctx.w.toNat + px) * channels e.2.2
        t.mem.read a = q8 p.r ∧ t.mem.read (a + 1) = q8 p.g ∧ t.mem.read (a + 2) = q8 p.b ∧
          (channels e.2.2 = 4 → t.mem.read (a + 3) = 255)

/-- Each of the six layouts to RGBF and RGBAF, when it executes undisturbed, completes with SUCCESS and count 0; every
channel word, read little-endian, is QF of Dec of the fetched triple, the alpha word of RGBAF is RNE32(FLOAT_SCALE),
every byte outside the destination region reads as before, and no register but the status changes. (R200, R156, R150,
R155, R137, R64) -/
def Obligations.YuvToRgbFloatConverts : Prop :=
  ∀ e ∈ yuvToRgbFloatRows, ∀ s : State, Ready e.1 (.yuvToRgb e.2.1 e.2.2) s →
    ∃ t, exec e.1 s = .next t ∧ Completed .success 0 s t ∧
      KeptOutside [dstRegion (.yuvToRgb e.2.1 e.2.2) s.ctx] s t ∧
      ∀ px py, px < s.ctx.w.toNat → py < s.ctx.h.toNat →
        let p := dec s.cfg.mdec (fetch e.2.1 s.ctx s.mem s.ctx.src.toNat px py)
        let a := s.ctx.dst.toNat + (py * s.ctx.w.toNat + px) * channels e.2.2 * 4
        t.mem.read32 a = qf s.cfg.floatScale p.r ∧ t.mem.read32 (a + 4) = qf s.cfg.floatScale p.g ∧
          t.mem.read32 (a + 8) = qf s.cfg.floatScale p.b ∧
          (channels e.2.2 = 4 → t.mem.read32 (a + 12) = rne32 (scaleValue s.cfg.floatScale))

/-- Each of RGB8, RGBF, RGBA8, RGBAF to I420, YV12 and NV12, when it executes undisturbed, completes with SUCCESS and
count 0; the Y byte of every pixel with finite channels is Q8 of its exact Y, the U and V bytes of every block whose
four pixels are finite are Q8 of the exact means, every byte outside the destination region reads as before, and no
register but the status changes. (R240, R153, R151, R154, R158, R137) -/
def Obligations.RgbToYuvConverts : Prop :=
  ∀ e ∈ rgbToYuvRows, ∀ s : State, Ready e.1 (.rgbToYuv e.2.1 e.2.2) s →
    ∃ t, exec e.1 s = .next t ∧ Completed .success 0 s t ∧
      KeptOutside [dstRegion (.rgbToYuv e.2.1 e.2.2) s.ctx] s t ∧
      (∀ px py p, px < s.ctx.w.toNat → py < s.ctx.h.toNat → sourceYuv s e.2.1 px py = some p →
        t.mem.read (s.ctx.dst.toNat + py * s.ctx.w.toNat + px) = q8 p.y) ∧
      (∀ bX bY p q r z, bX < s.ctx.w.toNat / 2 → bY < s.ctx.h.toNat / 2 →
        sourceYuv s e.2.1 (2 * bX) (2 * bY) = some p → sourceYuv s e.2.1 (2 * bX + 1) (2 * bY) = some q →
        sourceYuv s e.2.1 (2 * bX) (2 * bY + 1) = some r → sourceYuv s e.2.1 (2 * bX + 1) (2 * bY + 1) = some z →
        t.mem.read (addrU e.2.2 s.ctx s.ctx.dst.toNat bX bY) = mean4 p.u q.u r.u z.u ∧
          t.mem.read (addrV e.2.2 s.ctx s.ctx.dst.toNat bX bY) = mean4 p.v q.v r.v z.v)

/-- The embed, with either FLIP, when it executes undisturbed, completes with SUCCESS and count nbits // 8. Y of every
finite pixel is the plain conversion's; for every U index k whose block is finite, V is the plain mean, and U is
ONE_LEVEL or the natural U shifted right by SHIFT as the auxiliary bit k // RED says for k < nbits * RED, else the
natural U. Every byte outside the destination region reads as before, and no register but the status changes. (R285,
R276, R277, R274, R272, R137) -/
def Obligations.EmbedWritesCarriers : Prop :=
  ∀ (flip : Bool) (s : State), Ready (.rgb8ToI420Embed flip) (.embed s.cfg.embedType flip) s →
    ∃ t, exec (.rgb8ToI420Embed flip) s = .next t ∧ Completed .success (embedBits s.cfg s.ctx / 8) s t ∧
      KeptOutside [dstRegion (.embed s.cfg.embedType flip) s.ctx] s t ∧
      (∀ px py p, px < s.ctx.w.toNat → py < s.ctx.h.toNat → sourceYuv s s.cfg.embedType px py = some p →
        t.mem.read (s.ctx.dst.toNat + py * s.ctx.w.toNat + px) = q8 p.y) ∧
      (∀ k p q r z, k < s.ctx.NC →
        let bX := k % s.ctx.CW
        let bY := if flip then s.ctx.CH - 1 - k / s.ctx.CW else k / s.ctx.CW
        sourceYuv s s.cfg.embedType (2 * bX) (2 * bY) = some p →
        sourceYuv s s.cfg.embedType (2 * bX + 1) (2 * bY) = some q →
        sourceYuv s s.cfg.embedType (2 * bX) (2 * bY + 1) = some r →
        sourceYuv s s.cfg.embedType (2 * bX + 1) (2 * bY + 1) = some z →
        t.mem.read (s.ctx.dst.toNat + s.ctx.NY + s.ctx.NC + bY * s.ctx.CW + bX) = mean4 p.v q.v r.v z.v ∧
        t.mem.read (s.ctx.dst.toNat + s.ctx.NY + bY * s.ctx.CW + bX) =
          (if k < embedBits s.cfg s.ctx * s.cfg.red then
            (if (s.mem.read (s.ctx.aux.toNat + k / s.cfg.red / 8)).getLsbD (7 - k / s.cfg.red % 8) then s.cfg.oneLevel
             else mean4 p.u q.u r.u z.u >>> s.cfg.shift)
           else mean4 p.u q.u r.u z.u))

/-- The extract, when it executes undisturbed, completes with SUCCESS and count nbytes. Every pixel's R, G and B
channels hold the quantised Dec of its stored samples, and its alpha, where the type has one, opaque full scale; bit j
(from the most significant) of auxiliary byte i < nbytes is 1 exactly when more than half of the RED stored U samples
of bit 8i + j are at or above THRESH. Every byte outside the destination and auxiliary regions, and every auxiliary
byte from nbytes up, reads as before; no register but the status changes. (R290, R278, R279, R200, R156, R137) -/
def Obligations.ExtractWritesPixelsAndBytes : Prop :=
  ∀ s : State, Ready .nv12ToRgba8Extract (.extract s.cfg.extractType) s →
    ∃ t, exec .nv12ToRgba8Extract s = .next t ∧ Completed .success (extractBytes s.cfg s.ctx) s t ∧
      KeptOutside [dstRegion (.extract s.cfg.extractType) s.ctx,
        { base := s.ctx.aux.toNat, size := extractBytes s.cfg s.ctx }] s t ∧
      (∀ px py, px < s.ctx.w.toNat → py < s.ctx.h.toNat →
        let p := dec s.cfg.mdec (fetch (.sub420 .nv12) s.ctx s.mem s.ctx.src.toNat px py)
        let a := addrRgb s.cfg.extractType s.ctx s.ctx.dst.toNat px py
        ChannelHolds s.cfg.floatScale s.cfg.extractType t.mem (a 0) p.r ∧
          ChannelHolds s.cfg.floatScale s.cfg.extractType t.mem (a 1) p.g ∧
          ChannelHolds s.cfg.floatScale s.cfg.extractType t.mem (a 2) p.b ∧
          (channels s.cfg.extractType = 4 → AlphaHolds s.cfg.floatScale s.cfg.extractType t.mem (a 3))) ∧
      (∀ i j, i < extractBytes s.cfg s.ctx → j < 8 →
        (t.mem.read (s.ctx.aux.toNat + i)).getLsbD (7 - j) =
          decide (s.cfg.red < 2 * (List.range s.cfg.red).countP fun r =>
            decide (s.cfg.thresh ≤ (s.mem.read (addrU .nv12 s.ctx s.ctx.src.toNat
              (((8 * i + j) * s.cfg.red + r) % s.ctx.CW) (((8 * i + j) * s.cfg.red + r) / s.ctx.CW))).toNat)))

/-- For a float RGB to YUV operation executing undisturbed: the Y byte of a pixel with a non-finite channel is the
free value of its address, and so are U and V of a block with such a pixel. The other samples are covered by
RgbToYuvConverts, the embed by NonFiniteEmbedFreesNaturalSamples. The free value is that of log 5. (40_transform.md
R158) -/
def Obligations.NonFiniteInputLeavesFreeSamples : Prop :=
  ∀ e ∈ rgbToYuvRows, ∀ s : State, Ready e.1 (.rgbToYuv e.2.1 e.2.2) s →
    ∃ t, exec e.1 s = .next t ∧
      (∀ px py, px < s.ctx.w.toNat → py < s.ctx.h.toNat → sourceYuv s e.2.1 px py = none →
        t.mem.read (s.ctx.dst.toNat + py * s.ctx.w.toNat + px) =
          Config.freeByte s.draws (s.ctx.dst.toNat + py * s.ctx.w.toNat + px)) ∧
      (∀ bX bY dx dy, bX < s.ctx.w.toNat / 2 → bY < s.ctx.h.toNat / 2 → dx < 2 → dy < 2 →
        sourceYuv s e.2.1 (2 * bX + dx) (2 * bY + dy) = none →
        t.mem.read (addrU e.2.2 s.ctx s.ctx.dst.toNat bX bY) =
            Config.freeByte s.draws (addrU e.2.2 s.ctx s.ctx.dst.toNat bX bY) ∧
          t.mem.read (addrV e.2.2 s.ctx s.ctx.dst.toNat bX bY) =
            Config.freeByte s.draws (addrV e.2.2 s.ctx s.ctx.dst.toNat bX bY))

/-- For every instruction that executes with no device failure and whose regions overlap as R94 says: it completes
with SUCCESS and its own count, every byte of the destination region holds the free value of its address, and so does
every auxiliary byte an extract writes; every byte outside the written regions reads as before. The free value is that
of log 5. (20_memory.md R94) -/
def Obligations.OverlapLeavesAnyValue : Prop :=
  ∀ (i : Instr) (s : State), Executes i (operationOf s.cfg i) s → s.deviceFault = false → s.mem.wf = true →
    selfOverlap (operationOf s.cfg i) s.ctx = true →
    ∃ t, exec i s = .next t ∧ Completed .success (operationCount s.cfg (operationOf s.cfg i) s.ctx) s t ∧
      KeptOutside (writeRegions (operationOf s.cfg i) s.ctx) s t ∧
      (∀ a, inRegion (dstRegion (operationOf s.cfg i) s.ctx) a = true → t.mem.read a = Config.freeByte s.draws a) ∧
      (i = .nv12ToRgba8Extract → ∀ k, k < extractBytes s.cfg s.ctx →
        t.mem.read (s.ctx.aux.toNat + k) = Config.freeByte s.draws (s.ctx.aux.toNat + k))

/-- The core is BUSY with an instruction that executes and no device failure; the host stores a byte to a region the
operation reads or writes, in memory or when COHERENT is false in its cache, or another agent does in memory, and
nothing else happens. The store and then the core's turn are two steps to a next state: the code is SUCCESS and the
count the operation's own, every byte of the destination region holds the free value of its address, and so does every
auxiliary byte an extract writes, and the stored byte when it lies in a written region. That the core moves when no
input is left is the model's choice (log 3). The free value is that of log 5, the scope of the record that of log 16,
the cache that of log 14, the other agent that of log 24. (20_memory.md R93, 70_reset_and_hazards.md R341) -/
def Obligations.StoreDuringRunFreesOutput : Prop :=
  ∀ (i : Instr) (s : State) (a : Addr) (v : Byte), s.phase = .busy → decode s.cfg s.ctx.cmd = .ok i →
    Executes i (operationOf s.cfg i) s → s.deviceFault = false → s.mem.wf = true →
    s.inputs = [.store a [v]] ∨ s.inputs = [.agentStore a [v]] → a.toNat < 2 ^ s.cfg.addrW →
    inRegions (readRegions (operationOf s.cfg i) s.ctx ++ writeRegions (operationOf s.cfg i) s.ctx) a.toNat = true →
    ∃ u t, step s = .next u ∧ step u = .next t ∧ t.code = .success ∧
      t.auxCount = BitVec.ofNat 32 (operationCount s.cfg (operationOf s.cfg i) s.ctx) ∧
      (∀ b, inRegion (dstRegion (operationOf s.cfg i) s.ctx) b = true → t.mem.read b = Config.freeByte s.draws b) ∧
      (i = .nv12ToRgba8Extract → ∀ k, k < extractBytes s.cfg s.ctx →
        t.mem.read (s.ctx.aux.toNat + k) = Config.freeByte s.draws (s.ctx.aux.toNat + k)) ∧
      (inRegions (writeRegions (operationOf s.cfg i) s.ctx) a.toNat = true →
        t.mem.read a.toNat = Config.freeByte s.draws a.toNat)

/-- For every YUV to RGB and RGB to YUV operation and the embed, with an even and positive frame: the addresses it
writes have no repeats and are exactly those of the destination region. (R90, R200, R240, 20_memory.md R69) -/
def Obligations.WritesCoverDestinationOnce : Prop :=
  ∀ (c : Config) (op : Operation) (x : Ctx) (m : Memory) (free : Nat → Byte),
    (∀ t, op ≠ .extract t) → 0 < x.W → 0 < x.H → x.W % 2 = 0 → x.H % 2 = 0 →
    ((operationCells c op x m free).map Prod.fst).Nodup ∧
      ∀ a, a ∈ (operationCells c op x m free).map Prod.fst ↔ inRegion (dstRegion op x) a = true

/-- For every instruction and every next state, whichever code: the parameters, IRQ_EN, CMD, WIDTH, HEIGHT, AUX_LEN,
the six address registers, the latched context, the inputs, what the bus returned and the host's cache are as before;
BUSY is 0 and DONE is 1; every byte of memory outside the operation's written regions reads as before. That the
latched context is kept is the model's choice (log 7). (40_transform.md R131, R136, R137, 10_state.md R33,
20_memory.md R60) -/
def Obligations.ExecFrame : Prop :=
  ∀ (i : Instr) (s t : State), exec i s = .next t →
    t = { s with code := t.code, auxCount := t.auxCount, phase := .idle, done := true, touched := []
                 deviceFault := false, mem := t.mem, draws := t.draws } ∧
      KeptOutside (writeRegions (operationOf s.cfg i) s.ctx) s t

/-- Writing CMD, WIDTH, HEIGHT, AUX_LEN and the six address registers to anything before an instruction runs changes
its outcome only in those registers themselves. (10_state.md R34, R41, 70_reset_and_hazards.md R347, 20_memory.md R97)
-/
def Obligations.OperationReadsContextOnly : Prop :=
  ∀ (i : Instr) (s : State) (c w h l sl sh dl dh al ah : Word),
    exec i { s with cmd := c, width := w, height := h, auxLen := l, srcLo := sl, srcHi := sh, dstLo := dl
                    dstHi := dh, auxLo := al, auxHi := ah } =
      match exec i s with
      | .next t => .next { t with cmd := c, width := w, height := h, auxLen := l, srcLo := sl, srcHi := sh
                                  dstLo := dl, dstHi := dh, auxLo := al, auxHi := ah }
      | .fault f => .fault f
      | .refused r => .refused r

/-- A write of AUX_COUNT changes nothing; START writes 0 to it; a next state of an instruction has the whole bytes
embedded for a successful embed, the bytes written for a successful extract, and 0 for any other operation and any
code other than SUCCESS. (R33) -/
def Obligations.AuxCountRule : Prop :=
  (∀ (s : State) (v : Word), writeReg .auxCount v s = s) ∧
  (∀ s : State, s.phase = .idle → (start s).auxCount = 0) ∧
  (∀ (i : Instr) (s t : State), exec i s = .next t →
    (t.code ≠ .success → t.auxCount = 0) ∧
    (t.code = .success →
      t.auxCount =
        match i with
        | .rgb8ToI420Embed _ =>
          (match s.cfg.capPolicy with
            | .fail => s.ctx.auxlen
            | .truncate => BitVec.ofNat 32 (min (8 * s.ctx.auxlen.toNat) (s.ctx.NC / s.cfg.red) / 8))
        | .nv12ToRgba8Extract =>
          (match s.cfg.capPolicy with
            | .fail => s.ctx.auxlen
            | .truncate => BitVec.ofNat 32 (min s.ctx.auxlen.toNat (s.ctx.NC / s.cfg.red / 8)))
        | _ => 0))

/-- With BASE 256-byte aligned, a step whose next input is a 32-bit bus write to BASE plus a register's offset
performs the write of that register, and a bus read returns that register's value and changes nothing else.
(10_state.md R23, R24, 30_encoding.md R120) -/
def Obligations.BusReachesRegisters : Prop :=
  ∀ (s : State) (r : Reg) (v : Word) (rest : List Input), s.cfg.base.toNat % 256 = 0 →
    (s.inputs = .busWrite (s.cfg.base + BitVec.ofNat 64 (regOffset r)) 4 v :: rest →
      step s = .next (writeReg r v { s with inputs := rest })) ∧
    (s.inputs = .busRead (s.cfg.base + BitVec.ofNat 64 (regOffset r)) 4 :: rest →
      step s = .next { s with inputs := rest, rdata := readReg s r })

/-- A bus access that starts below the register block and reaches into it is refused. For one whose address lies in
the block: one that is not a 4-byte access at a multiple of 4 is refused; at an offset from 0x34 up a read returns 0
and a write changes nothing; a write to AUX_COUNT (0x30) changes nothing; a write to STATUS (0x04) or CTRL (0x00)
ignores every bit but DONE's, and START's and IRQ_EN's. (R24) -/
def Obligations.RegisterAccessRule : Prop :=
  ∀ (s : State) (a : BusAddr) (n : Nat) (v : Word) (rest : List Input), s.cfg.base.toNat % 256 = 0 →
    (a.toNat < s.cfg.base.toNat → s.cfg.base.toNat < a.toNat + n →
      (s.inputs = .busRead a n :: rest → step s = .refused .misfitRegisterAccess) ∧
      (s.inputs = .busWrite a n v :: rest → step s = .refused .misfitRegisterAccess)) ∧
    (s.cfg.base.toNat ≤ a.toNat → a.toNat < s.cfg.base.toNat + 256 →
      (¬ (n = 4 ∧ a.toNat % 4 = 0) →
        (s.inputs = .busRead a n :: rest → step s = .refused .misfitRegisterAccess) ∧
        (s.inputs = .busWrite a n v :: rest → step s = .refused .misfitRegisterAccess)) ∧
      (a.toNat % 4 = 0 → s.cfg.base.toNat + 0x34 ≤ a.toNat →
        (s.inputs = .busRead a 4 :: rest → step s = .next { s with inputs := rest, rdata := 0 }) ∧
        (s.inputs = .busWrite a 4 v :: rest → step s = .next { s with inputs := rest })) ∧
      (a.toNat = s.cfg.base.toNat + 0x30 → s.inputs = .busWrite a 4 v :: rest →
        step s = .next { s with inputs := rest }) ∧
      (a.toNat = s.cfg.base.toNat + 0x04 → s.inputs = .busWrite a 4 v :: rest →
        step s = step { s with inputs := .busWrite a 4 (v &&& 2) :: rest }) ∧
      (a.toNat = s.cfg.base.toNat → s.inputs = .busWrite a 4 v :: rest →
        step s = step { s with inputs := .busWrite a 4 (v &&& 3) :: rest }))

/-- For every state and value: IRQ_EN becomes bit 1 of the value; if bit 0 is 1 and the core is IDLE the registers are
latched, DONE, CODE and AUX_COUNT cleared and BUSY set; if bit 0 is 1 and the core is BUSY nothing else changes; if
bit 0 is 0 nothing else changes. Reading CTRL gives IRQ_EN in bit 1 and 0 in every other bit. (R26) -/
def Obligations.CtrlWriteRule : Prop :=
  ∀ (s : State) (v : Word),
    (v.getLsbD 0 = true → s.phase = .idle → writeReg .ctrl v s =
      { s with irqEn := v.getLsbD 1, phase := .busy, done := false, code := .success, auxCount := 0, touched := []
               deviceFault := false
               ctx := { cmd := s.cmd, w := s.width, h := s.height, auxlen := s.auxLen, src := s.srcHi ++ s.srcLo
                        dst := s.dstHi ++ s.dstLo, aux := s.auxHi ++ s.auxLo } }) ∧
    (v.getLsbD 0 = true → s.phase = .busy → writeReg .ctrl v s = { s with irqEn := v.getLsbD 1 }) ∧
    (v.getLsbD 0 = false → writeReg .ctrl v s = { s with irqEn := v.getLsbD 1 }) ∧
    (∀ j, (readReg s .ctrl).getLsbD j = (decide (j = 1) && s.irqEn))

/-- A write to STATUS with bit 1 set clears DONE and changes nothing else; with bit 1 clear it changes nothing; while
BUSY with DONE at 0 it leaves DONE at 0. (R28) -/
def Obligations.StatusWriteRule : Prop :=
  ∀ (s : State) (v : Word),
    (v.getLsbD 1 = true → writeReg .status v s = { s with done := false }) ∧
    (v.getLsbD 1 = false → writeReg .status v s = s) ∧
    (s.phase = .busy → s.done = false → (writeReg .status v s).done = false)

/-- BUSY is in bit 0, DONE in bit 1, the number of the status code (0 to 4) in bits 6:4, and every other bit reads 0.
(10_state.md R27, 60_exceptions.md R300) -/
def Obligations.StatusReadLayout : Prop :=
  ∀ s : State, (readReg s .status).getLsbD 0 = decide (s.phase = .busy) ∧ (readReg s .status).getLsbD 1 = s.done ∧
    ((readReg s .status).extractLsb' 4 3).toNat =
      (match s.code with
        | .success => 0
        | .invalidArgument => 1
        | .unsupported => 2
        | .capacityExceeded => 3
        | .deviceFailure => 4) ∧
    (readReg s .status).extractLsb' 2 2 = 0 ∧ (readReg s .status).extractLsb' 7 25 = 0

/-- In any phase, a write to one of these ten registers is read back whole, changes no other register's read value,
and leaves the latched context, memory, DONE, CODE and BUSY as they were. (10_state.md R29, R30, R31, R32, R34) -/
def Obligations.ParameterRegistersReadBack : Prop :=
  ∀ (s : State) (r : Reg) (v : Word),
    r ∈ [Reg.cmd, .width, .height, .auxLen, .srcLo, .srcHi, .dstLo, .dstHi, .auxLo, .auxHi] →
    readReg (writeReg r v s) r = v ∧ (∀ q, q ≠ r → readReg (writeReg r v s) q = readReg s q) ∧
      (writeReg r v s).ctx = s.ctx ∧ (writeReg r v s).mem = s.mem ∧ (writeReg r v s).phase = s.phase

/-- After any instruction's next state the interrupt equals IRQ_EN; after an acknowledge (STATUS written with bit 1),
after START from IDLE and after reset it is 0; clearing IRQ_EN without START masks it and keeps DONE.
(60_exceptions.md R304, R305, R310, 10_state.md R42) -/
def Obligations.InterruptRule : Prop :=
  (∀ (i : Instr) (s t : State), exec i s = .next t → irq t = s.irqEn) ∧
  (∀ (s : State) (v : Word), v.getLsbD 1 = true → irq (writeReg .status v s) = false) ∧
  (∀ (s : State) (v : Word), s.phase = .idle → v.getLsbD 0 = true → irq (writeReg .ctrl v s) = false) ∧
  (∀ s : State, irq (writeReg .ctrl 0 s) = false ∧ (writeReg .ctrl 0 s).done = s.done) ∧
  (∀ s : State, irq (resetCore s) = false)

/-- For all parameters the reset state has every register read 0, the core IDLE and the interrupt low, and a step from
it with no input is the same state: the core waits for a START (that the step is then the core's turn is the model's
choice, log 3). (10_state.md R45, 70_reset_and_hazards.md R330) -/
def Obligations.ResetStateValues : Prop :=
  ∀ c : Config, (∀ r, readReg (State.resetWith c) r = 0) ∧ (State.resetWith c).phase = .idle ∧
    irq (State.resetWith c) = false ∧ step (State.resetWith c) = .next (State.resetWith c)

/-- A step whose next input is reset leaves every register reading 0, the core IDLE and the interrupt low. If the core
was IDLE no byte of memory changes. If it was BUSY with a word that names an operation, whether or not the operation
passes its checks, every byte of the memory space in its destination region, and in an extract's auxiliary region,
holds the free value of its address (log 5) and every other byte is as before. For a word that names none the regions
are those its fields give, the model's reading (log 8). That an operation on addresses with read side effects is
abandoned as one on ordinary memory, without a refusal, is the model's choice (log 13). (70_reset_and_hazards.md R330,
R331) -/
def Obligations.ResetInput : Prop :=
  ∀ (s : State) (rest : List Input), s.inputs = .reset :: rest → s.mem.wf = true →
    ∃ t, step s = .next t ∧ (∀ r, readReg t r = 0) ∧ t.phase = .idle ∧ irq t = false ∧ t.inputs = rest ∧
      (s.phase = .idle → t.mem = s.mem) ∧
      (∀ i, s.phase = .busy → decode s.cfg s.ctx.cmd = .ok i → ∀ a,
        t.mem.read a =
          if inRegions (writeRegions (operationOf s.cfg i) s.ctx) a = true ∧ a < 2 ^ s.cfg.addrW
          then Config.freeByte s.draws a else s.mem.read a) ∧
      (∀ e, s.phase = .busy → decode s.cfg s.ctx.cmd = .error e → ∀ a,
        t.mem.read a =
          if inRegions (contextRegions s.ctx) a = true ∧ a < 2 ^ s.cfg.addrW
          then Config.freeByte s.draws a else s.mem.read a)

/-- A load while BUSY with a word that names an operation returns the free value at every address of its destination
region and of an extract's auxiliary region (log 5), whether or not the operation passes its checks and whatever the
host has cached. Elsewhere, and while IDLE, it returns the byte in memory, or when COHERENT is false the copy in the
host's cache (log 14). Memory itself never changes. That this holds at addresses with read side effects too is the
model's choice (log 13). (20_memory.md R90, 70_reset_and_hazards.md R340, 10_state.md R43) -/
def Obligations.LoadDuringRunIsFree : Prop :=
  ∀ (s : State) (a : Addr) (rest : List Input), s.inputs = .load a :: rest → a.toNat < 2 ^ s.cfg.addrW →
    ∃ t, step s = .next t ∧ t.mem = s.mem ∧ t.inputs = rest ∧
      (∀ i, s.phase = .busy → decode s.cfg s.ctx.cmd = .ok i →
        inRegions (writeRegions (operationOf s.cfg i) s.ctx) a.toNat = true →
        t.hdata = Config.freeByte s.draws a.toNat) ∧
      ((s.phase = .idle ∨ ∃ i, decode s.cfg s.ctx.cmd = .ok i ∧
          inRegions (writeRegions (operationOf s.cfg i) s.ctx) a.toNat = false) →
        (s.cfg.coherent = true → t.hdata = s.mem.read a.toNat) ∧
        (∀ l, s.cfg.coherent = false → cachedLine s.hostCache a.toNat = some l → t.hdata = l.byte) ∧
        (cachedLine s.hostCache a.toNat = none → t.hdata = s.mem.read a.toNat))

/-- When COHERENT is false: after a one-byte host store memory is unchanged, and a write back of a region holding that
byte, in a host cache with no other unwritten store to the region, leaves memory as the store itself would. The cache
is a model of the platform (log 14). (70_reset_and_hazards.md R345, 20_memory.md R92) -/
def Obligations.CachedStoreNeedsWriteBack : Prop :=
  ∀ (s : State) (a : Addr) (v : Byte) (r : Region) (rest : List Input), s.cfg.coherent = false →
    a.toNat < 2 ^ s.cfg.addrW → inRegion r a.toNat = true →
    (∀ l ∈ s.hostCache, l.dirty = true → inRegion r l.addr = true → l.addr = a.toNat) →
    s.inputs = .store a [v] :: .writeBack r :: rest →
    ∃ t u, step s = .next t ∧ t.mem = s.mem ∧ step t = .next u ∧ u.mem = s.mem.write a.toNat v ∧ u.inputs = rest

/-- The invariant: memory is in its canonical form and lists only addresses below 2^ADDR_W, the host's cache holds
only such addresses, DONE, CODE and AUX_COUNT read 0 while BUSY, and AUX_COUNT is 0 under a code other than SUCCESS.
From every state with the invariant, whatever the parameters and the next input, a step to a next state keeps it.
(20_memory.md R60, R63, 10_state.md R27, R33, 40_transform.md R130) -/
def Obligations.StepKeepsInv : Prop :=
  ∀ s t : State, Inv s → step s = .next t → Inv t

/-- For all parameters the state after reset has the invariant of StepKeepsInv. That memory lists nothing is the
model's choice (log 1). (10_state.md R45, 20_memory.md R60) -/
def Obligations.ResetHasInv : Prop :=
  ∀ c : Config, Inv (State.resetWith c)

/-- Whatever the state and its next input, a step to a next state leaves every parameter as it was. (00_scope.md R5)
-/
def Obligations.ParametersNeverChange : Prop :=
  ∀ s t : State, step s = .next t → t.cfg = s.cfg

/-- A BUSY core whose platform has no addresses with read side effects, with no input left, completes in one step:
BUSY 0 and DONE 1, whatever the latched word and context. That the core moves when no input is left is the model's
choice (log 3), which stands in for the weak fairness of R131, and so is one turn per operation (log 4).
(40_transform.md R131, 70_reset_and_hazards.md R350) -/
def Obligations.BusyCompletes : Prop :=
  ∀ s : State, s.phase = .busy → s.inputs = [] → s.cfg.sideEffects = [] →
    ∃ t, step s = .next t ∧ t.phase = .idle ∧ t.done = true

/-- From a BUSY core with DONE at 0, BASE aligned and no addresses with read side effects, the macro WAIT ends in two
steps: the first completes the operation, the second reads STATUS with DONE set and goes on to the rest. That a read
that does not match gives the core its turn is the model's choice (log 20). (30_encoding.md R121, R120) -/
def Obligations.WaitEnds : Prop :=
  ∀ (s : State) (rest : List Input), s.phase = .busy → s.done = false → s.cfg.base.toNat % 256 = 0 →
    s.cfg.sideEffects = [] → s.inputs = wait s.cfg ++ rest →
    ∃ t u, step s = .next t ∧ t.phase = .idle ∧ t.inputs = s.inputs ∧ step t = .next u ∧ u.inputs = rest ∧
      u.rdata.getLsbD 1 = true ∧ u.mem = t.mem

/-- No instruction ends in a fault; the only refusal of an instruction is that of a buffer on addresses with read side
effects; no step answers that an instruction is not modelled; and with no inputs left and no such addresses a step
always has a next state (that the core then has its turn is the model's choice, log 3). (10_state.md R24, 20_memory.md
R66, 60_exceptions.md R311) -/
def Obligations.StopsAreNamed : Prop :=
  (∀ (i : Instr) (s : State) (f : Fault), exec i s ≠ .fault f) ∧
  (∀ (i : Instr) (s : State) (r : Refusal), exec i s = .refused r → r = .sideEffectBuffer) ∧
  (∀ (s : State) (r : Refusal), step s = .refused r → r = .sideEffectBuffer ∨ r = .misfitRegisterAccess) ∧
  (∀ s : State, s.inputs = [] → s.cfg.sideEffects = [] → ∃ t, step s = .next t)

/-- For every rational q, the sample Q8(q) as a number is ⌊q + 1/2⌋ clamped to 0..255. (R154) -/
def Obligations.QuantiserRule : Prop :=
  ∀ q : ℚ, ((q8 q).toNat : ℤ) = min (max ⌊q + 1 / 2⌋ 0) 255

/-- For every rational and both scales: the bits of QF have sign 0 and stand for a finite value between 0 and
FLOAT_SCALE; for q ≤ 0 they are all 0. (40_transform.md R155) -/
def Obligations.FloatQuantiserRange : Prop :=
  ∀ (f : FloatScale) (q : ℚ), (qf f q).getLsbD 31 = false ∧
    (∃ v, f32 (qf f q) = some v ∧ 0 ≤ v ∧ v ≤ scaleValue f) ∧ (q ≤ 0 → qf f q = 0)

/-- For every rational x from 0 to 255: the bits RNE32(x) stand for a finite value at least as near to x as any finite
binary32 value, and when another value is as near, the last bit of the significand is 0. For x = 0 the bits are 0. The
binary32 format is IEEE 754's (log 17). (40_transform.md R155) -/
def Obligations.RoundsToNearestEven : Prop :=
  rne32 0 = 0 ∧ ∀ x : ℚ, 0 ≤ x → x ≤ 255 → ∃ v, f32 (rne32 x) = some v ∧
    ∀ (w : Word) (v' : ℚ), f32 w = some v' →
      |v - x| ≤ |v' - x| ∧ (|v' - x| = |v - x| → v' ≠ v → (rne32 x).getLsbD 0 = false)

/-- For every decode matrix and every Y, Dec(Y, 128, 128) is (Y, Y, Y), Q8 of each channel is Y, and QF of each
channel at FLOAT_SCALE 255 stands for Y exactly. (41_yuv_to_rgb.md R202) -/
def Obligations.GreyIsExact : Prop :=
  ∀ (k : DecodeMatrix) (y : Byte),
    dec k { y := y, u := 128, v := 128 } = { r := (y.toNat : ℚ), g := (y.toNat : ℚ), b := (y.toNat : ℚ) } ∧
      q8 (y.toNat : ℚ) = y ∧ f32 (qf .full255 (y.toNat : ℚ)) = some (y.toNat : ℚ)

/-- Under the default matrices, for every RGB8 colour filling a block: encoding to 8-bit Y, U and V (the chroma as the
rounded mean of four equal values) and decoding gives each channel within 1 of its input. (42_rgb_to_yuv.md R243) -/
def Obligations.UniformBlockRoundTrip : Prop :=
  ∀ r g b : Byte,
    let e := enc bt601Encode { r := (r.toNat : ℚ), g := (g.toNat : ℚ), b := (b.toNat : ℚ) }
    let d := dec bt601Decode { y := q8 e.y, u := mean4 e.u e.u e.u e.u, v := mean4 e.v e.v e.v e.v }
    |((q8 d.r).toNat : ℤ) - r.toNat| ≤ 1 ∧ |((q8 d.g).toNat : ℤ) - g.toNat| ≤ 1 ∧ |((q8 d.b).toNat : ℤ) - b.toNat| ≤ 1

/-- Two YUV to RGB operations of one RGB type, on any two of the six layouts, executing undisturbed with the same
parameters and context, whose sources give every pixel the same triple, complete and leave the same byte at every
address of the destination region. (41_yuv_to_rgb.md R203) -/
def Obligations.LayoutEquivalence : Prop :=
  ∀ (i j : Instr) (l k : YuvLayout) (ty : RgbType) (s z : State),
    (i, l, ty) ∈ yuvToRgb8Rows ++ yuvToRgbFloatRows → (j, k, ty) ∈ yuvToRgb8Rows ++ yuvToRgbFloatRows →
    Ready i (.yuvToRgb l ty) s → Ready j (.yuvToRgb k ty) z → z.cfg = s.cfg → z.ctx = s.ctx →
    (∀ px py, px < s.ctx.w.toNat → py < s.ctx.h.toNat →
      fetch l s.ctx s.mem s.ctx.src.toNat px py = fetch k s.ctx z.mem s.ctx.src.toNat px py) →
    ∃ t u, exec i s = .next t ∧ exec j z = .next u ∧
      ∀ a, inRegion (dstRegion (.yuvToRgb l ty) s.ctx) a = true → t.mem.read a = u.mem.read a

/-- For every operation that passes its argument checks and whose RGB buffer has binary32 channels, every channel
address of that buffer is a multiple of 4. (20_memory.md R65) -/
def Obligations.FloatChannelsAligned : Prop :=
  ∀ (c : Config) (op : Operation) (x : Ctx), invalidArgument c op x = false →
    bytesPerChannel (rgbBuffer op x).1 = 4 →
    ∀ px py ch, addrRgb (rgbBuffer op x).1 x (rgbBuffer op x).2 px py ch % 4 = 0

/-- For every frame and either flip: every U index below NC is placed in a block of the frame, no two in the same
block, and every block is some index's. (43_data_channel.md R271, R272) -/
def Obligations.PlaceIsBijective : Prop :=
  ∀ (x : Ctx) (flip : Bool),
    (∀ k, k < x.NC → (place x k flip).1 < x.CW ∧ (place x k flip).2 < x.CH) ∧
    (∀ k l, k < x.NC → l < x.NC → place x k flip = place x l flip → k = l) ∧
    (∀ bX bY, bX < x.CW → bY < x.CH → ∃ k, k < x.NC ∧ place x k flip = (bX, bY))

/-- Under the constraints on the parameters, for the samples a bit's group is written with over any natural samples: a
1-bit has RED votes, a 0-bit has none with every sample at most 255 >> SHIFT, and both decode as the bit. With noisy
samples in their place, the group still decodes as the bit when at most ⌈RED/2⌉ - 1 (for a 1-bit) or ⌊RED/2⌋ (for a
0-bit) of them lie on the other side of THRESH. (43_data_channel.md R282) -/
def Obligations.VoteSurvivesNoise : Prop :=
  ∀ (c : Config) (bit : Bool) (natural sample noisy : Nat → Byte) (g : Nat), c.wellFormed = true →
    (∀ j, j < c.red → sample (g * c.red + j) = embedSample c bit (natural (g * c.red + j))) →
    votes c sample g = (if bit then c.red else 0) ∧
      (bit = false → ∀ j, j < c.red → (sample (g * c.red + j)).toNat ≤ 255 >>> c.shift) ∧ decodeBit c sample g = bit ∧
      ((List.range c.red).countP (fun j =>
          decide (c.thresh ≤ (noisy (g * c.red + j)).toNat) != decide (c.thresh ≤ (sample (g * c.red + j)).toNat)) ≤
        (if bit then (c.red + 1) / 2 - 1 else c.red / 2) → decodeBit c noisy g = bit)

/-- An embed without flip and an extract with the same parameters, frame size and auxiliary length within capacity,
both executing undisturbed; if the extract's NV12 frame holds, block by block, the U samples the embed left in its
I420 frame, then the extract writes exactly the auxiliary bytes the embed read, whatever the RGB content.
(43_data_channel.md R283, R282) -/
def Obligations.DataChannelRoundTrip : Prop :=
  ∀ s z t u : State, s.cfg.wellFormed = true → z.cfg = s.cfg →
    Ready (.rgb8ToI420Embed false) (.embed s.cfg.embedType false) s →
    Ready .nv12ToRgba8Extract (.extract z.cfg.extractType) z →
    z.ctx.w = s.ctx.w → z.ctx.h = s.ctx.h → z.ctx.auxlen = s.ctx.auxlen →
    s.ctx.auxlen.toNat ≤ s.ctx.NC / s.cfg.red / 8 →
    exec (.rgb8ToI420Embed false) s = .next t → exec .nv12ToRgba8Extract z = .next u →
    (∀ bX bY, bX < s.ctx.CW → bY < s.ctx.CH →
      z.mem.read (addrU .nv12 z.ctx z.ctx.src.toNat bX bY) = t.mem.read (addrU .i420 s.ctx s.ctx.dst.toNat bX bY)) →
    ∀ k, k < s.ctx.auxlen.toNat → u.mem.read (z.ctx.aux.toNat + k) = s.mem.read (s.ctx.aux.toNat + k)

/-- As DataChannelRoundTrip, for an embed with FLIP set and an NV12 frame that holds the embed's U samples with the
chroma rows in reverse order: the extract writes exactly the auxiliary bytes the embed read. (43_data_channel.md R284,
R272) -/
def Obligations.FlipSymmetry : Prop :=
  ∀ s z t u : State, s.cfg.wellFormed = true → z.cfg = s.cfg →
    Ready (.rgb8ToI420Embed true) (.embed s.cfg.embedType true) s →
    Ready .nv12ToRgba8Extract (.extract z.cfg.extractType) z →
    z.ctx.w = s.ctx.w → z.ctx.h = s.ctx.h → z.ctx.auxlen = s.ctx.auxlen →
    s.ctx.auxlen.toNat ≤ s.ctx.NC / s.cfg.red / 8 →
    exec (.rgb8ToI420Embed true) s = .next t → exec .nv12ToRgba8Extract z = .next u →
    (∀ bX bY, bX < s.ctx.CW → bY < s.ctx.CH →
      z.mem.read (addrU .nv12 z.ctx z.ctx.src.toNat bX bY) = t.mem.read (addrU .i420 s.ctx s.ctx.dst.toNat bX (s.ctx.CH - 1 - bY))) →
    ∀ k, k < s.ctx.auxlen.toNat → u.mem.read (z.ctx.aux.toNat + k) = s.mem.read (s.ctx.aux.toNat + k)

/-- With auxiliary length 0 and EMBED_TYPE RGB8, the embed (either FLIP) and RGB8_TO_I420, both executing undisturbed
on one state, complete with the same memory and both with AUX_COUNT 0. (43_data_channel.md R285) -/
def Obligations.EmptyEmbedIsPlainConversion : Prop :=
  ∀ (flip : Bool) (s t u : State), s.cfg.embedType = .rgb8 → s.ctx.auxlen = 0 →
    Ready (.rgb8ToI420Embed flip) (.embed .rgb8 flip) s → Ready .rgb8ToI420 (.rgbToYuv .rgb8 .i420) s →
    exec (.rgb8ToI420Embed flip) s = .next t → exec .rgb8ToI420 s = .next u →
    t.mem = u.mem ∧ t.auxCount = 0 ∧ u.auxCount = 0

/-- For an embed (either FLIP) with a float EMBED_TYPE, executing undisturbed: the Y byte of a pixel with a non-finite
channel is the free value of its address, and so is V of a block with such a pixel. The U byte of that block, whose U
index is k, is what the codec makes of the free value of its address: ONE_LEVEL or the free value shifted right by
SHIFT as the auxiliary bit k // RED says for k < nbits * RED, else the free value itself. That the codec is applied to
the free natural U is the model's reading (log 10). The free value is that of log 5. (40_transform.md R158,
43_data_channel.md R276, R277) -/
def Obligations.NonFiniteEmbedFreesNaturalSamples : Prop :=
  ∀ (flip : Bool) (s : State), Ready (.rgb8ToI420Embed flip) (.embed s.cfg.embedType flip) s →
    ∃ t, exec (.rgb8ToI420Embed flip) s = .next t ∧
      (∀ px py, px < s.ctx.w.toNat → py < s.ctx.h.toNat → sourceYuv s s.cfg.embedType px py = none →
        t.mem.read (s.ctx.dst.toNat + py * s.ctx.w.toNat + px) =
          Config.freeByte s.draws (s.ctx.dst.toNat + py * s.ctx.w.toNat + px)) ∧
      (∀ k dx dy, k < s.ctx.NC → dx < 2 → dy < 2 →
        let bX := k % s.ctx.CW
        let bY := if flip then s.ctx.CH - 1 - k / s.ctx.CW else k / s.ctx.CW
        let aU := s.ctx.dst.toNat + s.ctx.NY + bY * s.ctx.CW + bX
        let aV := s.ctx.dst.toNat + s.ctx.NY + s.ctx.NC + bY * s.ctx.CW + bX
        sourceYuv s s.cfg.embedType (2 * bX + dx) (2 * bY + dy) = none →
        t.mem.read aV = Config.freeByte s.draws aV ∧
        t.mem.read aU =
          (if k < embedBits s.cfg s.ctx * s.cfg.red then
            (if (s.mem.read (s.ctx.aux.toNat + k / s.cfg.red / 8)).getLsbD (7 - k / s.cfg.red % 8) then s.cfg.oneLevel
             else Config.freeByte s.draws aU >>> s.cfg.shift)
           else Config.freeByte s.draws aU))

/-- The core is BUSY with a word that names an operation that is not supported or fails a check; the host or another
agent stores one byte to its destination region, or to an extract's auxiliary region, and nothing else happens. The
store and then the core's turn are two steps to a next state: the stored byte holds the free value of its address (log
5) and every other byte is as before, with the code of the first failing check. The scope of the record is log 16;
that the core moves when no input is left is log 3; no earlier store is on record. (20_memory.md R93, 40_transform.md
R136) -/
def Obligations.StoreToRejectedDestinationFreesIt : Prop :=
  ∀ (i : Instr) (s : State) (a : Addr) (v : Byte), s.phase = .busy → decode s.cfg s.ctx.cmd = .ok i →
    i ∉ s.cfg.supported ∨ invalidArgument s.cfg (operationOf s.cfg i) s.ctx = true ∨
      capacityExceeded s.cfg (operationOf s.cfg i) s.ctx = true → s.mem.wf = true →
    s.touched = [] → s.inputs = [.store a [v]] ∨ s.inputs = [.agentStore a [v]] → a.toNat < 2 ^ s.cfg.addrW →
    inRegions (writeRegions (operationOf s.cfg i) s.ctx) a.toNat = true →
    ∃ u t, step s = .next u ∧ step u = .next t ∧
      t.code = (if i ∉ s.cfg.supported then .unsupported
        else if invalidArgument s.cfg (operationOf s.cfg i) s.ctx = true then .invalidArgument else .capacityExceeded) ∧
      t.mem.read a.toNat = Config.freeByte s.draws a.toNat ∧
      ∀ b, b ≠ a.toNat → t.mem.read b = s.mem.read b

/-- For every state, whatever COHERENT is: a one-byte store by an agent that the host's cache does not serve is
performed in memory at once, changes no register and leaves the host's cache as it was. While IDLE and without
coherence a host load of that byte then returns the copy the host held before the store, if it held one, and that
agent's own load returns the stored byte. The host's cache is the model of log 14, the agent that of log 24. That this
holds at addresses with read side effects too is the model's choice (log 13). (60_exceptions.md R319, 20_memory.md
R95, 70_reset_and_hazards.md R345) -/
def Obligations.AgentStoreLeavesHostCopy : Prop :=
  ∀ (s : State) (a : Addr) (v : Byte) (rest : List Input), s.mem.wf = true → a.toNat < 2 ^ s.cfg.addrW →
    s.inputs = .agentStore a [v] :: rest →
    ∃ t, step s = .next t ∧ t.mem = s.mem.write a.toNat v ∧ t.mem.read a.toNat = v ∧ t.hostCache = s.hostCache ∧
      t.inputs = rest ∧ (∀ r, readReg t r = readReg s r) ∧
      (∀ l rest', s.phase = .idle → s.cfg.coherent = false → cachedLine s.hostCache a.toNat = some l →
        rest = .load a :: rest' → ∃ u, step t = .next u ∧ u.hdata = l.byte) ∧
      (∀ rest', s.phase = .idle → rest = .agentLoad a :: rest' → ∃ u, step t = .next u ∧ u.hdata = v)
end

