-- ==== Sys2Proof/Laws/Memory.lean ====
section
/-! SUPPORT. The laws of memory: read after write, the canonical form and its keeping, writes of lists of bytes, and that
two canonical memories with the same bytes are equal. -/

namespace Sys2Proof.Machine

@[simp] theorem Memory.read_nil (a : Nat) : Memory.read [] a = Memory.unlisted := rfl

theorem Memory.read_insert_same (m : Memory) (a : Nat) (v : Byte) : (Memory.insert m a v).read a = v := by
  induction m with
  | nil => simp [Memory.insert, Memory.read]
  | cons p rest ih =>
    obtain ⟨k, b⟩ := p
    simp only [Memory.insert]
    split
    · simp [Memory.read]
    · split
      · simp [Memory.read]
      · rename_i h1 h2
        simp [Memory.read, ih, Ne.symm h2]

theorem Memory.read_insert_other (m : Memory) (a c : Nat) (v : Byte) (h : c ≠ a) :
    (Memory.insert m a v).read c = m.read c := by
  induction m with
  | nil => simp [Memory.insert, Memory.read, Ne.symm h]
  | cons p rest ih =>
    obtain ⟨k, b⟩ := p
    simp only [Memory.insert]
    split
    · simp [Memory.read, Ne.symm h]
    · split
      · rename_i h2
        subst h2
        simp [Memory.read, Ne.symm h]
      · simp [Memory.read, ih]

theorem Memory.read_erase_other (m : Memory) (a c : Nat) (h : c ≠ a) : (Memory.erase m a).read c = m.read c := by
  induction m with
  | nil => rfl
  | cons p rest ih =>
    obtain ⟨k, b⟩ := p
    simp only [Memory.erase]
    split
    · rename_i h2
      subst h2
      simp [Memory.read, Ne.symm h]
    · simp [Memory.read, ih]

/-- In a canonical list every listed address is at or above the bound. -/
theorem Memory.wfFrom_le {lo : Nat} {m : Memory} (h : Memory.wfFrom lo m = true) : ∀ p ∈ m, lo ≤ p.1 := by
  induction m generalizing lo with
  | nil => simp
  | cons q rest ih =>
    obtain ⟨k, b⟩ := q
    simp only [Memory.wfFrom, Bool.and_eq_true, decide_eq_true_eq] at h
    intro p hp
    rcases List.mem_cons.mp hp with rfl | hp
    · exact h.1.1
    · exact Nat.le_trans h.1.1 (Nat.le_of_succ_le (ih h.2 p hp))

/-- An address that no entry has reads as unlisted. -/
theorem Memory.read_of_not_mem (m : Memory) (a : Nat) (h : ∀ p ∈ m, p.1 ≠ a) : m.read a = Memory.unlisted := by
  induction m with
  | nil => rfl
  | cons q rest ih =>
    obtain ⟨k, b⟩ := q
    have hk : k ≠ a := h (k, b) (by simp)
    simp [Memory.read, hk, ih (fun p hp => h p (by simp [hp]))]

theorem Memory.read_below {lo : Nat} {m : Memory} (h : Memory.wfFrom lo m = true) (a : Nat) (ha : a < lo) :
    m.read a = Memory.unlisted :=
  Memory.read_of_not_mem m a fun p hp => by have := Memory.wfFrom_le h p hp; omega

theorem Memory.read_erase_same {lo : Nat} {m : Memory} (h : Memory.wfFrom lo m = true) (a : Nat) :
    (Memory.erase m a).read a = Memory.unlisted := by
  induction m generalizing lo with
  | nil => rfl
  | cons q rest ih =>
    obtain ⟨k, b⟩ := q
    simp only [Memory.wfFrom, Bool.and_eq_true] at h
    simp only [Memory.erase]
    split
    · rename_i hk
      exact Memory.read_below h.2 a (by omega)
    · rename_i hk
      simp [Memory.read, hk, ih h.2]

theorem Memory.wfFrom_mono {lo lo' : Nat} {m : Memory} (h : Memory.wfFrom lo' m = true) (hl : lo ≤ lo') :
    Memory.wfFrom lo m = true := by
  cases m with
  | nil => rfl
  | cons q rest =>
    obtain ⟨k, b⟩ := q
    simp only [Memory.wfFrom, Bool.and_eq_true, decide_eq_true_eq] at h ⊢
    exact ⟨⟨Nat.le_trans hl h.1.1, h.1.2⟩, h.2⟩

theorem Memory.wfFrom_insert {lo : Nat} {m : Memory} (h : Memory.wfFrom lo m = true) (a : Nat) (v : Byte)
    (ha : lo ≤ a) (hv : v ≠ Memory.unlisted) : Memory.wfFrom lo (Memory.insert m a v) = true := by
  induction m generalizing lo with
  | nil => simp [Memory.insert, Memory.wfFrom, ha, hv]
  | cons q rest ih =>
    obtain ⟨k, b⟩ := q
    simp only [Memory.wfFrom, Bool.and_eq_true, decide_eq_true_eq] at h
    simp only [Memory.insert]
    split
    · rename_i hk
      simp only [Memory.wfFrom, Bool.and_eq_true, decide_eq_true_eq]
      exact ⟨⟨ha, hv⟩, ⟨hk, h.1.2⟩, h.2⟩
    · split
      · rename_i hk
        subst hk
        simp only [Memory.wfFrom, Bool.and_eq_true, decide_eq_true_eq]
        exact ⟨⟨ha, hv⟩, h.2⟩
      · simp only [Memory.wfFrom, Bool.and_eq_true, decide_eq_true_eq]
        exact ⟨h.1, ih h.2 (by omega)⟩

theorem Memory.wfFrom_erase {lo : Nat} {m : Memory} (h : Memory.wfFrom lo m = true) (a : Nat) :
    Memory.wfFrom lo (Memory.erase m a) = true := by
  induction m generalizing lo with
  | nil => rfl
  | cons q rest ih =>
    obtain ⟨k, b⟩ := q
    simp only [Memory.wfFrom, Bool.and_eq_true, decide_eq_true_eq] at h
    simp only [Memory.erase]
    split
    · exact Memory.wfFrom_mono h.2 (by omega)
    · simp only [Memory.wfFrom, Bool.and_eq_true, decide_eq_true_eq]
      exact ⟨h.1, ih h.2⟩

/-- A byte write keeps the canonical form. -/
theorem Memory.wf_write {m : Memory} (h : m.wf = true) (a : Nat) (v : Byte) : (m.write a v).wf = true := by
  unfold Memory.write Memory.wf
  split
  · exact Memory.wfFrom_erase h a
  · rename_i hv
    exact Memory.wfFrom_insert h a v (Nat.zero_le a) hv

/-- Byte writes keep the canonical form. -/
theorem Memory.wf_writeAll {m : Memory} (h : m.wf = true) (cells : List Host.Cell) : (m.writeAll cells).wf = true := by
  induction cells generalizing m with
  | nil => exact h
  | cons p rest ih => exact ih (Memory.wf_write h p.1 p.2)

/-- The memory after reset has the canonical form. -/
theorem reset_mem_wf (c : Config) : (State.resetWith c).mem.wf = true := rfl

/-- A read after a write to the same address gives the value written. -/
theorem Memory.read_write_same {m : Memory} (h : m.wf = true) (a : Nat) (v : Byte) : (m.write a v).read a = v := by
  unfold Memory.write
  split
  · rename_i hv
    rw [hv]
    exact Memory.read_erase_same h a
  · exact Memory.read_insert_same m a v

/-- A write leaves every other address alone. -/
theorem Memory.read_write_other (m : Memory) (a c : Nat) (v : Byte) (h : c ≠ a) : (m.write a v).read c = m.read c := by
  unfold Memory.write
  split
  · exact Memory.read_erase_other m a c h
  · exact Memory.read_insert_other m a c v h

/-- Byte writes leave every address they do not name alone. -/
theorem Memory.read_writeAll_other (m : Memory) (cells : List Host.Cell) (a : Nat) (h : ∀ p ∈ cells, p.1 ≠ a) :
    (m.writeAll cells).read a = m.read a := by
  induction cells generalizing m with
  | nil => rfl
  | cons p rest ih =>
    have hp : p.1 ≠ a := h p (by simp)
    simp only [Memory.writeAll]
    rw [ih _ fun q hq => h q (by simp [hq]), Memory.read_write_other m p.1 a p.2 (Ne.symm hp)]

/-- Byte writes that give each address one value leave that value there. -/
theorem Memory.read_writeAll_mem {m : Memory} (hm : m.wf = true) (cells : List Host.Cell) (a : Nat) (v : Byte)
    (h : (a, v) ∈ cells) (hf : ∀ p ∈ cells, p.1 = a → p.2 = v) : (m.writeAll cells).read a = v := by
  induction cells generalizing m with
  | nil => simp at h
  | cons p rest ih =>
    simp only [Memory.writeAll]
    by_cases hr : (a, v) ∈ rest
    · exact ih (Memory.wf_write hm p.1 p.2) hr fun q hq => hf q (by simp [hq])
    · have hp : p = (a, v) := by
        rcases List.mem_cons.mp h with hp | hp
        · exact hp.symm
        · exact absurd hp hr
      subst hp
      rw [Memory.read_writeAll_other]
      · exact Memory.read_write_same hm a v
      · intro q hq hqa
        have hv : q.2 = v := hf q (by simp [hq]) hqa
        exact hr (by rw [← hqa, ← hv]; exact hq)

theorem Memory.mem_insert {m : Memory} {a : Nat} {v : Byte} {p : Host.Cell} (h : p ∈ Memory.insert m a v) :
    p = (a, v) ∨ p ∈ m := by
  induction m with
  | nil => simpa [Memory.insert] using h
  | cons q rest ih =>
    obtain ⟨k, b⟩ := q
    simp only [Memory.insert] at h
    split at h
    · simpa using h
    · split at h
      · rcases List.mem_cons.mp h with h | h
        · exact .inl h
        · exact .inr (by simp [h])
      · rcases List.mem_cons.mp h with h | h
        · exact .inr (by simp [h])
        · rcases ih h with h | h
          · exact .inl h
          · exact .inr (by simp [h])

theorem Memory.mem_erase {m : Memory} {a : Nat} {p : Host.Cell} (h : p ∈ Memory.erase m a) : p ∈ m := by
  induction m with
  | nil => simp [Memory.erase] at h
  | cons q rest ih =>
    obtain ⟨k, b⟩ := q
    simp only [Memory.erase] at h
    split at h
    · simp [h]
    · rcases List.mem_cons.mp h with h | h
      · simp [h]
      · simp [ih h]

/-- Byte writes inside the memory space keep memory inside it. -/
theorem Memory.within_writeAll {m : Memory} {c : Config} (h : m.within c) (cells : List Host.Cell)
    (hc : ∀ p ∈ cells, p.1 < 2 ^ c.addrW) : (m.writeAll cells).within c := by
  induction cells generalizing m with
  | nil => exact h
  | cons q rest ih =>
    refine ih (m := m.write q.1 q.2) ?_ fun p hp => hc p (by simp [hp])
    intro p hp
    unfold Memory.write at hp
    split at hp
    · exact h p (Memory.mem_erase hp)
    · rcases Memory.mem_insert hp with rfl | hp
      · exact hc q (by simp)
      · exact h p hp

/-- Two canonical memories with the same byte at every address are equal. -/
theorem Memory.eq_of_read_eq {lo : Nat} {m n : Memory} (hm : Memory.wfFrom lo m = true)
    (hn : Memory.wfFrom lo n = true) (h : ∀ a, m.read a = n.read a) : m = n := by
  induction m generalizing lo n with
  | nil =>
    cases n with
    | nil => rfl
    | cons q rest =>
      obtain ⟨k, b⟩ := q
      have hk := h k
      simp only [Memory.wfFrom, Bool.and_eq_true, decide_eq_true_eq] at hn
      simp [Memory.read] at hk
      exact absurd hk.symm hn.1.2
  | cons p rest ih =>
    obtain ⟨k, b⟩ := p
    have hm' := hm
    simp only [Memory.wfFrom, Bool.and_eq_true, decide_eq_true_eq] at hm
    cases n with
    | nil =>
      have hk := h k
      simp [Memory.read] at hk
      exact absurd hk hm.1.2
    | cons q rest' =>
      obtain ⟨k', b'⟩ := q
      have hn' := hn
      simp only [Memory.wfFrom, Bool.and_eq_true, decide_eq_true_eq] at hn
      have hkk : k = k' := by
        by_contra hne
        rcases Nat.lt_or_gt_of_ne hne with hlt | hlt
        · have h1 := h k
          rw [show Memory.read ((k', b') :: rest') k = Memory.unlisted by
            simp [Memory.read, Ne.symm hne, Memory.read_below hn.2 k (by omega)]] at h1
          simp [Memory.read] at h1
          exact hm.1.2 h1
        · have h1 := h k'
          rw [show Memory.read ((k, b) :: rest) k' = Memory.unlisted by
            simp [Memory.read, hne, Memory.read_below hm.2 k' (by omega)]] at h1
          simp [Memory.read] at h1
          exact hn.1.2 h1.symm
      subst hkk
      have hb : b = b' := by simpa [Memory.read] using h k
      subst hb
      have hr : rest = rest' := by
        refine ih hm.2 hn.2 fun a => ?_
        by_cases hak : k = a
        · rw [Memory.read_below hm.2 a (by omega), Memory.read_below hn.2 a (by omega)]
        · simpa [Memory.read, hak] using h a
      rw [hr]

end Sys2Proof.Machine
end

