-- ==== Sys2Proof/Laws/State.lean ====
section
/-! SUPPORT. One lemma per field per shared update of State, true by rfl, and the spec lemmas of START and reset, so that
no later proof unfolds a record update. -/

namespace Sys2Proof.Machine

variable (s : State)

@[simp] theorem complete_cfg (k : StatusCode) (n : Nat) : (complete k n s).cfg = s.cfg := rfl
@[simp] theorem complete_irqEn (k : StatusCode) (n : Nat) : (complete k n s).irqEn = s.irqEn := rfl
@[simp] theorem complete_phase (k : StatusCode) (n : Nat) : (complete k n s).phase = .idle := rfl
@[simp] theorem complete_done (k : StatusCode) (n : Nat) : (complete k n s).done = true := rfl
@[simp] theorem complete_code (k : StatusCode) (n : Nat) : (complete k n s).code = k := rfl
@[simp] theorem complete_cmd (k : StatusCode) (n : Nat) : (complete k n s).cmd = s.cmd := rfl
@[simp] theorem complete_width (k : StatusCode) (n : Nat) : (complete k n s).width = s.width := rfl
@[simp] theorem complete_height (k : StatusCode) (n : Nat) : (complete k n s).height = s.height := rfl
@[simp] theorem complete_auxLen (k : StatusCode) (n : Nat) : (complete k n s).auxLen = s.auxLen := rfl
@[simp] theorem complete_srcLo (k : StatusCode) (n : Nat) : (complete k n s).srcLo = s.srcLo := rfl
@[simp] theorem complete_srcHi (k : StatusCode) (n : Nat) : (complete k n s).srcHi = s.srcHi := rfl
@[simp] theorem complete_dstLo (k : StatusCode) (n : Nat) : (complete k n s).dstLo = s.dstLo := rfl
@[simp] theorem complete_dstHi (k : StatusCode) (n : Nat) : (complete k n s).dstHi = s.dstHi := rfl
@[simp] theorem complete_auxLo (k : StatusCode) (n : Nat) : (complete k n s).auxLo = s.auxLo := rfl
@[simp] theorem complete_auxHi (k : StatusCode) (n : Nat) : (complete k n s).auxHi = s.auxHi := rfl
@[simp] theorem complete_auxCount (k : StatusCode) (n : Nat) : (complete k n s).auxCount = (if k = .success then BitVec.ofNat 32 n else 0) := rfl
@[simp] theorem complete_ctx (k : StatusCode) (n : Nat) : (complete k n s).ctx = s.ctx := rfl
@[simp] theorem complete_mem (k : StatusCode) (n : Nat) : (complete k n s).mem = s.mem := rfl
@[simp] theorem complete_touched (k : StatusCode) (n : Nat) : (complete k n s).touched = [] := rfl
@[simp] theorem complete_deviceFault (k : StatusCode) (n : Nat) : (complete k n s).deviceFault = false := rfl
@[simp] theorem complete_hostCache (k : StatusCode) (n : Nat) : (complete k n s).hostCache = s.hostCache := rfl
@[simp] theorem complete_rdata (k : StatusCode) (n : Nat) : (complete k n s).rdata = s.rdata := rfl
@[simp] theorem complete_hdata (k : StatusCode) (n : Nat) : (complete k n s).hdata = s.hdata := rfl
@[simp] theorem complete_draws (k : StatusCode) (n : Nat) : (complete k n s).draws = s.draws := rfl
@[simp] theorem complete_inputs (k : StatusCode) (n : Nat) : (complete k n s).inputs = s.inputs := rfl

@[simp] theorem acknowledge_cfg : (acknowledge s).cfg = s.cfg := rfl
@[simp] theorem acknowledge_irqEn : (acknowledge s).irqEn = s.irqEn := rfl
@[simp] theorem acknowledge_phase : (acknowledge s).phase = s.phase := rfl
@[simp] theorem acknowledge_done : (acknowledge s).done = false := rfl
@[simp] theorem acknowledge_code : (acknowledge s).code = s.code := rfl
@[simp] theorem acknowledge_cmd : (acknowledge s).cmd = s.cmd := rfl
@[simp] theorem acknowledge_width : (acknowledge s).width = s.width := rfl
@[simp] theorem acknowledge_height : (acknowledge s).height = s.height := rfl
@[simp] theorem acknowledge_auxLen : (acknowledge s).auxLen = s.auxLen := rfl
@[simp] theorem acknowledge_srcLo : (acknowledge s).srcLo = s.srcLo := rfl
@[simp] theorem acknowledge_srcHi : (acknowledge s).srcHi = s.srcHi := rfl
@[simp] theorem acknowledge_dstLo : (acknowledge s).dstLo = s.dstLo := rfl
@[simp] theorem acknowledge_dstHi : (acknowledge s).dstHi = s.dstHi := rfl
@[simp] theorem acknowledge_auxLo : (acknowledge s).auxLo = s.auxLo := rfl
@[simp] theorem acknowledge_auxHi : (acknowledge s).auxHi = s.auxHi := rfl
@[simp] theorem acknowledge_auxCount : (acknowledge s).auxCount = s.auxCount := rfl
@[simp] theorem acknowledge_ctx : (acknowledge s).ctx = s.ctx := rfl
@[simp] theorem acknowledge_mem : (acknowledge s).mem = s.mem := rfl
@[simp] theorem acknowledge_touched : (acknowledge s).touched = s.touched := rfl
@[simp] theorem acknowledge_deviceFault : (acknowledge s).deviceFault = s.deviceFault := rfl
@[simp] theorem acknowledge_hostCache : (acknowledge s).hostCache = s.hostCache := rfl
@[simp] theorem acknowledge_rdata : (acknowledge s).rdata = s.rdata := rfl
@[simp] theorem acknowledge_hdata : (acknowledge s).hdata = s.hdata := rfl
@[simp] theorem acknowledge_draws : (acknowledge s).draws = s.draws := rfl
@[simp] theorem acknowledge_inputs : (acknowledge s).inputs = s.inputs := rfl

@[simp] theorem recordStore_cfg (a : Nat) : (recordStore a s).cfg = s.cfg := rfl
@[simp] theorem recordStore_irqEn (a : Nat) : (recordStore a s).irqEn = s.irqEn := rfl
@[simp] theorem recordStore_phase (a : Nat) : (recordStore a s).phase = s.phase := rfl
@[simp] theorem recordStore_done (a : Nat) : (recordStore a s).done = s.done := rfl
@[simp] theorem recordStore_code (a : Nat) : (recordStore a s).code = s.code := rfl
@[simp] theorem recordStore_cmd (a : Nat) : (recordStore a s).cmd = s.cmd := rfl
@[simp] theorem recordStore_width (a : Nat) : (recordStore a s).width = s.width := rfl
@[simp] theorem recordStore_height (a : Nat) : (recordStore a s).height = s.height := rfl
@[simp] theorem recordStore_auxLen (a : Nat) : (recordStore a s).auxLen = s.auxLen := rfl
@[simp] theorem recordStore_srcLo (a : Nat) : (recordStore a s).srcLo = s.srcLo := rfl
@[simp] theorem recordStore_srcHi (a : Nat) : (recordStore a s).srcHi = s.srcHi := rfl
@[simp] theorem recordStore_dstLo (a : Nat) : (recordStore a s).dstLo = s.dstLo := rfl
@[simp] theorem recordStore_dstHi (a : Nat) : (recordStore a s).dstHi = s.dstHi := rfl
@[simp] theorem recordStore_auxLo (a : Nat) : (recordStore a s).auxLo = s.auxLo := rfl
@[simp] theorem recordStore_auxHi (a : Nat) : (recordStore a s).auxHi = s.auxHi := rfl
@[simp] theorem recordStore_auxCount (a : Nat) : (recordStore a s).auxCount = s.auxCount := rfl
@[simp] theorem recordStore_ctx (a : Nat) : (recordStore a s).ctx = s.ctx := rfl
@[simp] theorem recordStore_mem (a : Nat) : (recordStore a s).mem = s.mem := rfl
@[simp] theorem recordStore_deviceFault (a : Nat) : (recordStore a s).deviceFault = s.deviceFault := rfl
@[simp] theorem recordStore_hostCache (a : Nat) : (recordStore a s).hostCache = s.hostCache := rfl
@[simp] theorem recordStore_rdata (a : Nat) : (recordStore a s).rdata = s.rdata := rfl
@[simp] theorem recordStore_hdata (a : Nat) : (recordStore a s).hdata = s.hdata := rfl
@[simp] theorem recordStore_draws (a : Nat) : (recordStore a s).draws = s.draws := rfl
@[simp] theorem recordStore_inputs (a : Nat) : (recordStore a s).inputs = s.inputs := rfl
@[simp] theorem recordStore_touched (a : Nat) : (recordStore a s).touched = (if s.phase = .busy then a :: s.touched else s.touched) := rfl

@[simp] theorem performStore_cfg (a : Nat) (v : Byte) : (performStore a v s).cfg = s.cfg := rfl
@[simp] theorem performStore_irqEn (a : Nat) (v : Byte) : (performStore a v s).irqEn = s.irqEn := rfl
@[simp] theorem performStore_phase (a : Nat) (v : Byte) : (performStore a v s).phase = s.phase := rfl
@[simp] theorem performStore_done (a : Nat) (v : Byte) : (performStore a v s).done = s.done := rfl
@[simp] theorem performStore_code (a : Nat) (v : Byte) : (performStore a v s).code = s.code := rfl
@[simp] theorem performStore_cmd (a : Nat) (v : Byte) : (performStore a v s).cmd = s.cmd := rfl
@[simp] theorem performStore_width (a : Nat) (v : Byte) : (performStore a v s).width = s.width := rfl
@[simp] theorem performStore_height (a : Nat) (v : Byte) : (performStore a v s).height = s.height := rfl
@[simp] theorem performStore_auxLen (a : Nat) (v : Byte) : (performStore a v s).auxLen = s.auxLen := rfl
@[simp] theorem performStore_srcLo (a : Nat) (v : Byte) : (performStore a v s).srcLo = s.srcLo := rfl
@[simp] theorem performStore_srcHi (a : Nat) (v : Byte) : (performStore a v s).srcHi = s.srcHi := rfl
@[simp] theorem performStore_dstLo (a : Nat) (v : Byte) : (performStore a v s).dstLo = s.dstLo := rfl
@[simp] theorem performStore_dstHi (a : Nat) (v : Byte) : (performStore a v s).dstHi = s.dstHi := rfl
@[simp] theorem performStore_auxLo (a : Nat) (v : Byte) : (performStore a v s).auxLo = s.auxLo := rfl
@[simp] theorem performStore_auxHi (a : Nat) (v : Byte) : (performStore a v s).auxHi = s.auxHi := rfl
@[simp] theorem performStore_auxCount (a : Nat) (v : Byte) : (performStore a v s).auxCount = s.auxCount := rfl
@[simp] theorem performStore_ctx (a : Nat) (v : Byte) : (performStore a v s).ctx = s.ctx := rfl
@[simp] theorem performStore_mem (a : Nat) (v : Byte) : (performStore a v s).mem = s.mem.write a v := rfl
@[simp] theorem performStore_touched (a : Nat) (v : Byte) : (performStore a v s).touched = (if s.phase = .busy then a :: s.touched else s.touched) := rfl
@[simp] theorem performStore_deviceFault (a : Nat) (v : Byte) : (performStore a v s).deviceFault = s.deviceFault := rfl
@[simp] theorem performStore_hostCache (a : Nat) (v : Byte) : (performStore a v s).hostCache = s.hostCache := rfl
@[simp] theorem performStore_rdata (a : Nat) (v : Byte) : (performStore a v s).rdata = s.rdata := rfl
@[simp] theorem performStore_hdata (a : Nat) (v : Byte) : (performStore a v s).hdata = s.hdata := rfl
@[simp] theorem performStore_draws (a : Nat) (v : Byte) : (performStore a v s).draws = s.draws := rfl
@[simp] theorem performStore_inputs (a : Nat) (v : Byte) : (performStore a v s).inputs = s.inputs := rfl

@[simp] theorem succeed_cfg (free : Nat → Byte) (op : Operation) : (succeed free op s).cfg = s.cfg := rfl
@[simp] theorem succeed_irqEn (free : Nat → Byte) (op : Operation) : (succeed free op s).irqEn = s.irqEn := rfl
@[simp] theorem succeed_phase (free : Nat → Byte) (op : Operation) : (succeed free op s).phase = .idle := rfl
@[simp] theorem succeed_done (free : Nat → Byte) (op : Operation) : (succeed free op s).done = true := rfl
@[simp] theorem succeed_code (free : Nat → Byte) (op : Operation) : (succeed free op s).code = .success := rfl
@[simp] theorem succeed_cmd (free : Nat → Byte) (op : Operation) : (succeed free op s).cmd = s.cmd := rfl
@[simp] theorem succeed_width (free : Nat → Byte) (op : Operation) : (succeed free op s).width = s.width := rfl
@[simp] theorem succeed_height (free : Nat → Byte) (op : Operation) : (succeed free op s).height = s.height := rfl
@[simp] theorem succeed_auxLen (free : Nat → Byte) (op : Operation) : (succeed free op s).auxLen = s.auxLen := rfl
@[simp] theorem succeed_srcLo (free : Nat → Byte) (op : Operation) : (succeed free op s).srcLo = s.srcLo := rfl
@[simp] theorem succeed_srcHi (free : Nat → Byte) (op : Operation) : (succeed free op s).srcHi = s.srcHi := rfl
@[simp] theorem succeed_dstLo (free : Nat → Byte) (op : Operation) : (succeed free op s).dstLo = s.dstLo := rfl
@[simp] theorem succeed_dstHi (free : Nat → Byte) (op : Operation) : (succeed free op s).dstHi = s.dstHi := rfl
@[simp] theorem succeed_auxLo (free : Nat → Byte) (op : Operation) : (succeed free op s).auxLo = s.auxLo := rfl
@[simp] theorem succeed_auxHi (free : Nat → Byte) (op : Operation) : (succeed free op s).auxHi = s.auxHi := rfl
@[simp] theorem succeed_auxCount (free : Nat → Byte) (op : Operation) : (succeed free op s).auxCount = BitVec.ofNat 32 (operationCount s.cfg op s.ctx) := rfl
@[simp] theorem succeed_ctx (free : Nat → Byte) (op : Operation) : (succeed free op s).ctx = s.ctx := rfl
@[simp] theorem succeed_mem (free : Nat → Byte) (op : Operation) : (succeed free op s).mem = s.mem.writeAll (outputCells free op s) := rfl
@[simp] theorem succeed_touched (free : Nat → Byte) (op : Operation) : (succeed free op s).touched = [] := rfl
@[simp] theorem succeed_deviceFault (free : Nat → Byte) (op : Operation) : (succeed free op s).deviceFault = false := rfl
@[simp] theorem succeed_hostCache (free : Nat → Byte) (op : Operation) : (succeed free op s).hostCache = s.hostCache := rfl
@[simp] theorem succeed_rdata (free : Nat → Byte) (op : Operation) : (succeed free op s).rdata = s.rdata := rfl
@[simp] theorem succeed_hdata (free : Nat → Byte) (op : Operation) : (succeed free op s).hdata = s.hdata := rfl
@[simp] theorem succeed_draws (free : Nat → Byte) (op : Operation) : (succeed free op s).draws = s.draws + 1 := rfl
@[simp] theorem succeed_inputs (free : Nat → Byte) (op : Operation) : (succeed free op s).inputs = s.inputs := rfl

@[simp] theorem turnAway_cfg (free : Nat → Byte) (k : StatusCode) (rs : List Region) : (turnAway free k rs s).cfg = s.cfg := rfl
@[simp] theorem turnAway_irqEn (free : Nat → Byte) (k : StatusCode) (rs : List Region) : (turnAway free k rs s).irqEn = s.irqEn := rfl
@[simp] theorem turnAway_phase (free : Nat → Byte) (k : StatusCode) (rs : List Region) : (turnAway free k rs s).phase = .idle := rfl
@[simp] theorem turnAway_done (free : Nat → Byte) (k : StatusCode) (rs : List Region) : (turnAway free k rs s).done = true := rfl
@[simp] theorem turnAway_code (free : Nat → Byte) (k : StatusCode) (rs : List Region) : (turnAway free k rs s).code = k := rfl
@[simp] theorem turnAway_cmd (free : Nat → Byte) (k : StatusCode) (rs : List Region) : (turnAway free k rs s).cmd = s.cmd := rfl
@[simp] theorem turnAway_width (free : Nat → Byte) (k : StatusCode) (rs : List Region) : (turnAway free k rs s).width = s.width := rfl
@[simp] theorem turnAway_height (free : Nat → Byte) (k : StatusCode) (rs : List Region) : (turnAway free k rs s).height = s.height := rfl
@[simp] theorem turnAway_auxLen (free : Nat → Byte) (k : StatusCode) (rs : List Region) : (turnAway free k rs s).auxLen = s.auxLen := rfl
@[simp] theorem turnAway_srcLo (free : Nat → Byte) (k : StatusCode) (rs : List Region) : (turnAway free k rs s).srcLo = s.srcLo := rfl
@[simp] theorem turnAway_srcHi (free : Nat → Byte) (k : StatusCode) (rs : List Region) : (turnAway free k rs s).srcHi = s.srcHi := rfl
@[simp] theorem turnAway_dstLo (free : Nat → Byte) (k : StatusCode) (rs : List Region) : (turnAway free k rs s).dstLo = s.dstLo := rfl
@[simp] theorem turnAway_dstHi (free : Nat → Byte) (k : StatusCode) (rs : List Region) : (turnAway free k rs s).dstHi = s.dstHi := rfl
@[simp] theorem turnAway_auxLo (free : Nat → Byte) (k : StatusCode) (rs : List Region) : (turnAway free k rs s).auxLo = s.auxLo := rfl
@[simp] theorem turnAway_auxHi (free : Nat → Byte) (k : StatusCode) (rs : List Region) : (turnAway free k rs s).auxHi = s.auxHi := rfl
@[simp] theorem turnAway_auxCount (free : Nat → Byte) (k : StatusCode) (rs : List Region) : (turnAway free k rs s).auxCount = 0 := by
  cases k <;> rfl
@[simp] theorem turnAway_ctx (free : Nat → Byte) (k : StatusCode) (rs : List Region) : (turnAway free k rs s).ctx = s.ctx := rfl
@[simp] theorem turnAway_mem (free : Nat → Byte) (k : StatusCode) (rs : List Region) : (turnAway free k rs s).mem = s.mem.writeAll (storedCells free rs s) := rfl
@[simp] theorem turnAway_touched (free : Nat → Byte) (k : StatusCode) (rs : List Region) : (turnAway free k rs s).touched = [] := rfl
@[simp] theorem turnAway_deviceFault (free : Nat → Byte) (k : StatusCode) (rs : List Region) : (turnAway free k rs s).deviceFault = false := rfl
@[simp] theorem turnAway_hostCache (free : Nat → Byte) (k : StatusCode) (rs : List Region) : (turnAway free k rs s).hostCache = s.hostCache := rfl
@[simp] theorem turnAway_rdata (free : Nat → Byte) (k : StatusCode) (rs : List Region) : (turnAway free k rs s).rdata = s.rdata := rfl
@[simp] theorem turnAway_hdata (free : Nat → Byte) (k : StatusCode) (rs : List Region) : (turnAway free k rs s).hdata = s.hdata := rfl
@[simp] theorem turnAway_draws (free : Nat → Byte) (k : StatusCode) (rs : List Region) : (turnAway free k rs s).draws = s.draws + 1 := rfl
@[simp] theorem turnAway_inputs (free : Nat → Byte) (k : StatusCode) (rs : List Region) : (turnAway free k rs s).inputs = s.inputs := rfl

@[simp] theorem failDevice_cfg (free : Nat → Byte) (op : Operation) : (failDevice free op s).cfg = s.cfg := rfl
@[simp] theorem failDevice_irqEn (free : Nat → Byte) (op : Operation) : (failDevice free op s).irqEn = s.irqEn := rfl
@[simp] theorem failDevice_phase (free : Nat → Byte) (op : Operation) : (failDevice free op s).phase = .idle := rfl
@[simp] theorem failDevice_done (free : Nat → Byte) (op : Operation) : (failDevice free op s).done = true := rfl
@[simp] theorem failDevice_code (free : Nat → Byte) (op : Operation) : (failDevice free op s).code = .deviceFailure := rfl
@[simp] theorem failDevice_cmd (free : Nat → Byte) (op : Operation) : (failDevice free op s).cmd = s.cmd := rfl
@[simp] theorem failDevice_width (free : Nat → Byte) (op : Operation) : (failDevice free op s).width = s.width := rfl
@[simp] theorem failDevice_height (free : Nat → Byte) (op : Operation) : (failDevice free op s).height = s.height := rfl
@[simp] theorem failDevice_auxLen (free : Nat → Byte) (op : Operation) : (failDevice free op s).auxLen = s.auxLen := rfl
@[simp] theorem failDevice_srcLo (free : Nat → Byte) (op : Operation) : (failDevice free op s).srcLo = s.srcLo := rfl
@[simp] theorem failDevice_srcHi (free : Nat → Byte) (op : Operation) : (failDevice free op s).srcHi = s.srcHi := rfl
@[simp] theorem failDevice_dstLo (free : Nat → Byte) (op : Operation) : (failDevice free op s).dstLo = s.dstLo := rfl
@[simp] theorem failDevice_dstHi (free : Nat → Byte) (op : Operation) : (failDevice free op s).dstHi = s.dstHi := rfl
@[simp] theorem failDevice_auxLo (free : Nat → Byte) (op : Operation) : (failDevice free op s).auxLo = s.auxLo := rfl
@[simp] theorem failDevice_auxHi (free : Nat → Byte) (op : Operation) : (failDevice free op s).auxHi = s.auxHi := rfl
@[simp] theorem failDevice_auxCount (free : Nat → Byte) (op : Operation) : (failDevice free op s).auxCount = 0 := rfl
@[simp] theorem failDevice_ctx (free : Nat → Byte) (op : Operation) : (failDevice free op s).ctx = s.ctx := rfl
@[simp] theorem failDevice_mem (free : Nat → Byte) (op : Operation) : (failDevice free op s).mem = s.mem.writeAll (freeCells free (writeRegions op s.ctx)) := rfl
@[simp] theorem failDevice_touched (free : Nat → Byte) (op : Operation) : (failDevice free op s).touched = [] := rfl
@[simp] theorem failDevice_deviceFault (free : Nat → Byte) (op : Operation) : (failDevice free op s).deviceFault = false := rfl
@[simp] theorem failDevice_hostCache (free : Nat → Byte) (op : Operation) : (failDevice free op s).hostCache = s.hostCache := rfl
@[simp] theorem failDevice_rdata (free : Nat → Byte) (op : Operation) : (failDevice free op s).rdata = s.rdata := rfl
@[simp] theorem failDevice_hdata (free : Nat → Byte) (op : Operation) : (failDevice free op s).hdata = s.hdata := rfl
@[simp] theorem failDevice_draws (free : Nat → Byte) (op : Operation) : (failDevice free op s).draws = s.draws + 1 := rfl
@[simp] theorem failDevice_inputs (free : Nat → Byte) (op : Operation) : (failDevice free op s).inputs = s.inputs := rfl

@[simp] theorem resetCore_cfg : (resetCore s).cfg = s.cfg := rfl
@[simp] theorem resetCore_irqEn : (resetCore s).irqEn = false := rfl
@[simp] theorem resetCore_phase : (resetCore s).phase = .idle := rfl
@[simp] theorem resetCore_done : (resetCore s).done = false := rfl
@[simp] theorem resetCore_code : (resetCore s).code = .success := rfl
@[simp] theorem resetCore_cmd : (resetCore s).cmd = 0 := rfl
@[simp] theorem resetCore_width : (resetCore s).width = 0 := rfl
@[simp] theorem resetCore_height : (resetCore s).height = 0 := rfl
@[simp] theorem resetCore_auxLen : (resetCore s).auxLen = 0 := rfl
@[simp] theorem resetCore_srcLo : (resetCore s).srcLo = 0 := rfl
@[simp] theorem resetCore_srcHi : (resetCore s).srcHi = 0 := rfl
@[simp] theorem resetCore_dstLo : (resetCore s).dstLo = 0 := rfl
@[simp] theorem resetCore_dstHi : (resetCore s).dstHi = 0 := rfl
@[simp] theorem resetCore_auxLo : (resetCore s).auxLo = 0 := rfl
@[simp] theorem resetCore_auxHi : (resetCore s).auxHi = 0 := rfl
@[simp] theorem resetCore_auxCount : (resetCore s).auxCount = 0 := rfl
@[simp] theorem resetCore_ctx : (resetCore s).ctx = Ctx.zero := rfl
@[simp] theorem resetCore_mem : (resetCore s).mem = s.mem.writeAll (freeCells (Config.freeByte s.draws) ((busyRegions s).map (clampRegion s.cfg))) := rfl
@[simp] theorem resetCore_touched : (resetCore s).touched = [] := rfl
@[simp] theorem resetCore_deviceFault : (resetCore s).deviceFault = false := rfl
@[simp] theorem resetCore_hostCache : (resetCore s).hostCache = s.hostCache := rfl
@[simp] theorem resetCore_rdata : (resetCore s).rdata = s.rdata := rfl
@[simp] theorem resetCore_hdata : (resetCore s).hdata = s.hdata := rfl
@[simp] theorem resetCore_draws : (resetCore s).draws = s.draws + 1 := rfl
@[simp] theorem resetCore_inputs : (resetCore s).inputs = s.inputs := rfl

@[simp] theorem discardRegion_cfg (r : Region) : (discardRegion r s).cfg = s.cfg := rfl
@[simp] theorem discardRegion_irqEn (r : Region) : (discardRegion r s).irqEn = s.irqEn := rfl
@[simp] theorem discardRegion_phase (r : Region) : (discardRegion r s).phase = s.phase := rfl
@[simp] theorem discardRegion_done (r : Region) : (discardRegion r s).done = s.done := rfl
@[simp] theorem discardRegion_code (r : Region) : (discardRegion r s).code = s.code := rfl
@[simp] theorem discardRegion_cmd (r : Region) : (discardRegion r s).cmd = s.cmd := rfl
@[simp] theorem discardRegion_width (r : Region) : (discardRegion r s).width = s.width := rfl
@[simp] theorem discardRegion_height (r : Region) : (discardRegion r s).height = s.height := rfl
@[simp] theorem discardRegion_auxLen (r : Region) : (discardRegion r s).auxLen = s.auxLen := rfl
@[simp] theorem discardRegion_srcLo (r : Region) : (discardRegion r s).srcLo = s.srcLo := rfl
@[simp] theorem discardRegion_srcHi (r : Region) : (discardRegion r s).srcHi = s.srcHi := rfl
@[simp] theorem discardRegion_dstLo (r : Region) : (discardRegion r s).dstLo = s.dstLo := rfl
@[simp] theorem discardRegion_dstHi (r : Region) : (discardRegion r s).dstHi = s.dstHi := rfl
@[simp] theorem discardRegion_auxLo (r : Region) : (discardRegion r s).auxLo = s.auxLo := rfl
@[simp] theorem discardRegion_auxHi (r : Region) : (discardRegion r s).auxHi = s.auxHi := rfl
@[simp] theorem discardRegion_auxCount (r : Region) : (discardRegion r s).auxCount = s.auxCount := rfl
@[simp] theorem discardRegion_ctx (r : Region) : (discardRegion r s).ctx = s.ctx := rfl
@[simp] theorem discardRegion_mem (r : Region) : (discardRegion r s).mem = s.mem := rfl
@[simp] theorem discardRegion_touched (r : Region) : (discardRegion r s).touched = s.touched := rfl
@[simp] theorem discardRegion_deviceFault (r : Region) : (discardRegion r s).deviceFault = s.deviceFault := rfl
@[simp] theorem discardRegion_hostCache (r : Region) : (discardRegion r s).hostCache = s.hostCache.filter fun l => !(inRegion r l.addr) := rfl
@[simp] theorem discardRegion_rdata (r : Region) : (discardRegion r s).rdata = s.rdata := rfl
@[simp] theorem discardRegion_hdata (r : Region) : (discardRegion r s).hdata = s.hdata := rfl
@[simp] theorem discardRegion_draws (r : Region) : (discardRegion r s).draws = s.draws := rfl
@[simp] theorem discardRegion_inputs (r : Region) : (discardRegion r s).inputs = s.inputs := rfl

/-- START while BUSY is ignored (40_transform R130). -/
theorem start_of_busy (h : s.phase = .busy) : start s = s := by simp [start, h]

/-- START while IDLE latches the context and clears the result fields (40_transform R130). -/
theorem start_of_idle (h : s.phase = .idle) :
    start s = { s with ctx := latch s, done := false, code := .success, auxCount := 0, phase := .busy, touched := []
                       deviceFault := false } := by
  simp [start, h]

/-- START never changes the parameters, memory or the inputs. -/
theorem start_frame : (start s).cfg = s.cfg ∧ (start s).mem = s.mem ∧ (start s).inputs = s.inputs
    ∧ (start s).hostCache = s.hostCache := by
  cases h : s.phase with
  | busy => simp [start_of_busy s h]
  | idle => simp [start_of_idle s h]

/-- A register write changes only registers and what START writes: never the parameters, memory, the inputs or the host's
cache. -/
theorem writeReg_frame (r : Reg) (v : Word) : (writeReg r v s).cfg = s.cfg ∧ (writeReg r v s).mem = s.mem
    ∧ (writeReg r v s).inputs = s.inputs ∧ (writeReg r v s).hostCache = s.hostCache := by
  cases r with
  | ctrl =>
    simp only [writeReg, writeCtrl]
    split
    · exact start_frame _
    · simp
  | status =>
    simp only [writeReg, writeStatus]
    split <;> simp
  | _ => simp [writeReg]

end Sys2Proof.Machine
end

