-- ==== Sys2Proof/Laws/Ops.lean ====
section
/-! SUPPORT. What each shared operation can do, said once: the course of an operation, the arms of exec, the core's turn,
and the acts of other agents. -/

namespace Sys2Proof.Machine

/-- Every arm of exec is the shared course over what the table says the instruction converts. -/
theorem exec_eq_runOperation (i : Instr) (s : State) : exec i s = runOperation i (operationOf s.cfg i) s := by
  cases i <;> rfl

/-- Everything the course of an operation can answer with a next state. -/
theorem runOperation_cases {i : Instr} {op : Operation} {s t : State} (h : runOperation i op s = .next t) :
    (i ∉ s.cfg.supported ∧ t = turnAway (Config.freeByte s.draws) .unsupported (writeRegions op s.ctx) s)
    ∨ (i ∈ s.cfg.supported ∧ invalidArgument s.cfg op s.ctx = true 
        ∧ t = turnAway (Config.freeByte s.draws) .invalidArgument (writeRegions op s.ctx) s)
    ∨ (i ∈ s.cfg.supported ∧ invalidArgument s.cfg op s.ctx = false ∧ capacityExceeded s.cfg op s.ctx = true
        ∧ t = turnAway (Config.freeByte s.draws) .capacityExceeded (writeRegions op s.ctx) s)
    ∨ (Executes i op s ∧ s.deviceFault = true ∧ t = failDevice (Config.freeByte s.draws) op s)
    ∨ (Executes i op s ∧ s.deviceFault = false ∧ t = succeed (Config.freeByte s.draws) op s) := by
  unfold runOperation at h
  by_cases h1 : i ∈ s.cfg.supported
  · cases h2 : invalidArgument s.cfg op s.ctx
    · cases h3 : capacityExceeded s.cfg op s.ctx
      · cases h4 : onSideEffects s.cfg op s.ctx
        · cases h5 : s.deviceFault <;> simp [h1, h2, h3, h4, h5] at h <;> simp [Executes, h1, h2, h3, h4, h]
        · simp [h1, h2, h3, h4] at h
      · simp [h1, h2, h3] at h
        simp [h1, h]
    · simp [h1, h2] at h
      simp [h1, h]
  · simp [h1] at h
    simp [h1, h]

/-- An operation that executes with no device failure completes with SUCCESS. -/
theorem runOperation_succeeds {i : Instr} {op : Operation} {s : State} (h : Executes i op s)
    (hf : s.deviceFault = false) : runOperation i op s = .next (succeed (Config.freeByte s.draws) op s) := by
  obtain ⟨h1, h2, h3, h4⟩ := h
  simp [runOperation, h1, h2, h3, h4, hf]

/-- An operation that executes under a device failure completes with DEVICE_FAILURE. -/
theorem runOperation_fails {i : Instr} {op : Operation} {s : State} (h : Executes i op s)
    (hf : s.deviceFault = true) : runOperation i op s = .next (failDevice (Config.freeByte s.draws) op s) := by
  obtain ⟨h1, h2, h3, h4⟩ := h
  simp [runOperation, h1, h2, h3, h4, hf]

/-- The core's turn: idle it waits, BUSY it runs the latched command word or completes with UNSUPPORTED. -/
theorem coreTurn_cases (s : State) :
    (s.phase = .idle ∧ coreTurn s = .next s)
    ∨ (∃ i, s.phase = .busy ∧ decode s.cfg s.ctx.cmd = .ok i ∧ coreTurn s = exec i s)
    ∨ (∃ r, s.phase = .busy ∧ decode s.cfg s.ctx.cmd = .error r
        ∧ coreTurn s = .next (turnAway (Config.freeByte s.draws) .unsupported (contextRegions s.ctx) s)) := by
  cases hp : s.phase
  · exact .inl ⟨rfl, by simp [coreTurn, hp]⟩
  · cases hd : decode s.cfg s.ctx.cmd with
    | ok i => exact .inr (.inl ⟨i, rfl, rfl, by simp [coreTurn, hp, hd]⟩)
    | error r => exact .inr (.inr ⟨r, rfl, rfl, by simp [coreTurn, hp, hd]⟩)

/-- A step with no input left is the core's turn. -/
theorem step_of_no_inputs {s : State} (h : s.inputs = []) : step s = coreTurn s := by simp [step, advance, h]

/-- A step with inputs left is the next one. -/
theorem step_of_input {s : State} {e : Input} {rest : List Input} (h : s.inputs = e :: rest) :
    step s = deliver e { s with inputs := rest } := by
  simp [step, advance, h]

/-- One byte store by the host: performed when COHERENT, else held in the cache. -/
theorem hostStoreByte_cases (a : Nat) (v : Byte) (s : State) :
    (s.cfg.coherent = true ∧ hostStoreByte a v s = performStore a v s)
    ∨ (s.cfg.coherent = false ∧ hostStoreByte a v s
        = { recordStore a s with hostCache := putLine s.hostCache { addr := a, byte := v, dirty := true } }) := by
  cases h : s.cfg.coherent <;> simp [hostStoreByte, h]

/-- A host load writes only the byte it returns, the count of free values and the host's cache. -/
theorem hostLoad_frame (a : Nat) (s : State) :
    ∃ b d cache, hostLoad a s = { s with hdata := b, draws := d, hostCache := cache } := ⟨_, _, _, rfl⟩

/-- What a host load returns: any value in the regions of a BUSY core's context, else the byte in memory or, when not
COHERENT, the cached copy. -/
theorem observedByte_cases (s : State) (a : Nat) :
    (s.phase = .busy ∧ inRegions (contextRegions s.ctx) a = true ∧ observedByte s a = Config.freeByte s.draws a)
    ∨ ((s.phase = .idle ∨ inRegions (contextRegions s.ctx) a = false) ∧ observedByte s a = hostByte s a) := by
  cases hp : s.phase
  · exact .inr ⟨.inl rfl, by simp [observedByte, observed, busyRegions, hp, inRegions]⟩
  · cases hr : inRegions (contextRegions s.ctx) a
    · exact .inr ⟨.inr rfl, by simp [observedByte, observed, busyRegions, hp, hr]⟩
    · exact .inl ⟨rfl, rfl, by simp [observedByte, observed, busyRegions, hp, hr]⟩

/-- What a host load finds in memory or in the host's cache. -/
theorem hostByte_cases (s : State) (a : Nat) :
    (s.cfg.coherent = true ∧ hostByte s a = s.mem.read a)
    ∨ (s.cfg.coherent = false ∧ cachedLine s.hostCache a = none ∧ hostByte s a = s.mem.read a)
    ∨ (s.cfg.coherent = false ∧ ∃ l, cachedLine s.hostCache a = some l ∧ hostByte s a = l.byte) := by
  cases hc : s.cfg.coherent
  · cases hl : cachedLine s.hostCache a with
    | none => exact .inr (.inl ⟨rfl, rfl, by simp [hostByte, hc, hl]⟩)
    | some l => exact .inr (.inr ⟨rfl, l, rfl, by simp [hostByte, hc, hl]⟩)
  · exact .inl ⟨rfl, by simp [hostByte, hc]⟩

/-- A word that names an operation gives, by its fields, the regions that operation writes. -/
theorem contextRegions_of_decode {c : Config} {x : Ctx} {i : Instr} (h : decode c x.cmd = .ok i) :
    contextRegions x = writeRegions (operationOf c i) x := by
  unfold decode at h
  split at h
  · cases h
  split at h
  · cases h
  · rename_i l hl
    split at h
    · rename_i ha hd _
      injection h with h
      subst h
      rcases l with p | p <;> cases p <;> cases ht : rgbTypeOfCode (fieldRgbt x.cmd) <;>
        simp [contextRegions, contextDstSize, ha, hd, ht, yuvToRgbInstr, operationOf, writeRegions, dstRegion]
    · rename_i ha hd _
      split at h
      · injection h with h
        subst h
        rename_i p
        cases p <;> cases ht : rgbTypeOfCode (fieldRgbt x.cmd) <;>
          simp [contextRegions, contextDstSize, ha, hd, hl, rgbToYuvInstr, operationOf, writeRegions, dstRegion]
      · cases h
    · cases h
    · rename_i ha hd
      split at h
      · rename_i hc
        injection h with h
        subst h
        simp [contextRegions, contextDstSize, ha, hd, hl, hc.1, operationOf, writeRegions, dstRegion]
      · cases h
    · rename_i ha hd _
      split at h
      · rename_i hc
        injection h with h
        subst h
        simp [contextRegions, contextDstSize, ha, hd, hc.2, operationOf, writeRegions, dstRegion, auxRegion, usesAux]
      · cases h
    · cases h

/-- An access that fits the register block is an aligned 32-bit access to one of its bytes. -/
theorem fits_iff (c : Config) (a : BusAddr) (bytes : Nat) :
    fits c a bytes = true ↔ bytes = 4 ∧ a.toNat % 4 = 0 ∧ c.base.toNat ≤ a.toNat ∧ a.toNat < c.base.toNat + 256 := by
  simp only [fits, selected, Bool.and_eq_true, decide_eq_true_eq]
  omega

/-- What a bus read can do. -/
theorem busRead_cases (a : BusAddr) (bytes : Nat) (s : State) :
    (fits s.cfg a bytes = true ∧ busRead a bytes s = .next { s with rdata := readAt s a })
    ∨ (selected s.cfg a bytes = true ∧ fits s.cfg a bytes = false ∧ busRead a bytes s = .refused .misfitRegisterAccess)
    ∨ (selected s.cfg a bytes = false ∧ busRead a bytes s = .next s) := by
  cases hs : selected s.cfg a bytes
  · exact .inr (.inr ⟨rfl, by simp [busRead, hs]⟩)
  · cases hf : fits s.cfg a bytes
    · exact .inr (.inl ⟨rfl, rfl, by simp [busRead, hs, hf]⟩)
    · exact .inl ⟨rfl, by simp [busRead, hs, hf]⟩

/-- What a bus write can do. -/
theorem busWrite_cases (a : BusAddr) (bytes : Nat) (v : Word) (s : State) :
    (fits s.cfg a bytes = true ∧ busWrite a bytes v s = .next (writeAt a v s))
    ∨ (selected s.cfg a bytes = true ∧ fits s.cfg a bytes = false
        ∧ busWrite a bytes v s = .refused .misfitRegisterAccess)
    ∨ (selected s.cfg a bytes = false ∧ busWrite a bytes v s = .next s) := by
  cases hs : selected s.cfg a bytes
  · exact .inr (.inr ⟨rfl, by simp [busWrite, hs]⟩)
  · cases hf : fits s.cfg a bytes
    · exact .inr (.inl ⟨rfl, rfl, by simp [busWrite, hs, hf]⟩)
    · exact .inl ⟨rfl, by simp [busWrite, hs, hf]⟩

/-- What one byte of a store keeps, a store of bytes within a range of addresses keeps. -/
theorem storeBytes_induction {P : State → Prop} {one : Nat → Byte → State → State} {hi : Nat}
    (hone : ∀ a v s, a < hi → P s → P (one a v s)) (a : Nat) (bytes : List Byte) (s : State)
    (hb : a + bytes.length ≤ hi) (hs : P s) : P (storeBytes one a bytes s) := by
  induction bytes generalizing a s with
  | nil => exact hs
  | cons v rest ih =>
    simp only [List.length_cons] at hb
    exact ih (a + 1) (one a v s) (by omega) (hone a v s (by omega) hs)

/-- A store of bytes by the host writes only memory, the record of touched addresses and the host's cache. -/
theorem hostStore_frame (a : Nat) (bytes : List Byte) (s : State) :
    ∃ m l cache, hostStore a bytes s = { s with mem := m, touched := l, hostCache := cache } := by
  refine storeBytes_induction (P := fun t => ∃ m l cache, t = { s with mem := m, touched := l, hostCache := cache })
    (fun b v t _ ht => ?_) a bytes s le_rfl ⟨s.mem, s.touched, s.hostCache, rfl⟩
  obtain ⟨m, l, cache, rfl⟩ := ht
  rcases hostStoreByte_cases b v _ with ⟨-, hc⟩ | ⟨-, hc⟩
  · exact ⟨_, _, _, hc⟩
  · exact ⟨_, _, _, hc⟩

/-- A store of bytes by another agent writes only memory and the record of touched addresses. -/
theorem agentStore_frame (a : Nat) (bytes : List Byte) (s : State) :
    ∃ m l, agentStore a bytes s = { s with mem := m, touched := l } := by
  refine storeBytes_induction (P := fun t => ∃ m l, t = { s with mem := m, touched := l })
    (fun b v t _ ht => ?_) a bytes s le_rfl ⟨s.mem, s.touched, rfl⟩
  obtain ⟨m, l, rfl⟩ := ht
  exact ⟨_, _, rfl⟩

/-- Performing cached stores writes only memory and the record of touched addresses. -/
theorem performLines_frame (lines : List CacheLine) (s : State) :
    ∃ m l, performLines lines s = { s with mem := m, touched := l } := by
  induction lines generalizing s with
  | nil => exact ⟨s.mem, s.touched, rfl⟩
  | cons k rest ih =>
    obtain ⟨m, l, h⟩ := ih (performStore k.addr k.byte s)
    exact ⟨m, l, by rw [performLines, h]; rfl⟩

/-- The byte writes that free some regions: one for each of their bytes, with the free value of its address. -/
theorem mem_freeCells {free : Nat → Byte} {rs : List Region} {p : Host.Cell} :
    p ∈ freeCells free rs ↔ inRegions rs p.1 = true ∧ p.2 = free p.1 := by
  simp only [freeCells, List.mem_flatMap, List.mem_map, List.mem_range, inRegions, List.any_eq_true, inRegion,
    Bool.and_eq_true, decide_eq_true_eq]
  constructor
  · rintro ⟨r, hr, k, hk, rfl⟩
    exact ⟨⟨r, hr, by simp, by simpa using hk⟩, rfl⟩
  · rintro ⟨⟨r, hr, h1, h2⟩, h3⟩
    refine ⟨r, hr, p.1 - r.base, by omega, ?_⟩
    rw [show r.base + (p.1 - r.base) = p.1 by omega, ← h3]

/-- An address lies in the clamped regions exactly when it lies in the regions and in the memory space. -/
theorem inRegions_map_clampRegion (c : Config) (rs : List Region) (a : Nat) :
    inRegions (rs.map (clampRegion c)) a = (inRegions rs a && decide (a < 2 ^ c.addrW)) := by
  rw [Bool.eq_iff_iff]
  simp only [inRegions, List.any_eq_true, List.mem_map, inRegion, Bool.and_eq_true, decide_eq_true_eq]
  constructor
  · rintro ⟨q, ⟨r, hr, rfl⟩, h1, h2⟩
    simp only [clampRegion] at h1 h2
    exact ⟨⟨r, hr, h1, by omega⟩, by omega⟩
  · rintro ⟨⟨r, hr, h1, h2⟩, h3⟩
    exact ⟨clampRegion c r, ⟨r, hr, rfl⟩, h1, by simp only [clampRegion]; omega⟩

/-- The byte writes that free what other agents stored to: one for each recorded address of the regions in memory. -/
theorem mem_storedCells {free : Nat → Byte} {rs : List Region} {s : State} {p : Host.Cell} :
    p ∈ storedCells free rs s ↔
      p.1 ∈ s.touched ∧ inRegions rs p.1 = true ∧ p.1 < 2 ^ s.cfg.addrW ∧ p.2 = free p.1 := by
  simp only [storedCells, List.mem_map, List.mem_filter, inRegions_map_clampRegion, Bool.and_eq_true, decide_eq_true_eq]
  constructor
  · rintro ⟨a, ⟨h1, h2, h3⟩, rfl⟩
    exact ⟨h1, h2, h3, rfl⟩
  · rintro ⟨h1, h2, h3, h4⟩
    exact ⟨p.1, ⟨h1, h2, h3⟩, by rw [← h4]⟩

/-- With no store by another agent, an operation that is turned away leaves memory as it was. -/
theorem turnAway_mem_of_untouched {free : Nat → Byte} {k : StatusCode} {rs : List Region} {s : State}
    (h : s.touched = []) : (turnAway free k rs s).mem = s.mem := by
  simp [storedCells, h, Memory.writeAll]

/-- What passing the argument checks says, in numbers (40_transform R133). -/
theorem invalidArgument_false {c : Config} {op : Operation} {x : Ctx} (h : invalidArgument c op x = false) :
    x.src ≠ 0 ∧ x.dst ≠ 0 ∧ (usesAux op = true → x.aux ≠ 0) ∧ 0 < x.W ∧ 0 < x.H ∧ x.W % 2 = 0 ∧ x.H % 2 = 0
      ∧ (srcRegion op x).base + (srcRegion op x).size ≤ 2 ^ c.addrW
      ∧ (dstRegion op x).base + (dstRegion op x).size ≤ 2 ^ c.addrW
      ∧ (usesAux op = true → (auxRegion op x).base + (auxRegion op x).size ≤ 2 ^ c.addrW) := by
  simp only [invalidArgument, nullPointer, nullAux, zeroDimension, oddDimension, addressTooWide, highBits,
    misalignedFloat, bufferPastTop, pastTop, Bool.or_eq_false_iff, Bool.and_eq_false_iff, decide_eq_false_iff_not] at h
  refine ⟨h.1.1.1.1.1.1.1, h.1.1.1.1.1.1.2, ?_, by omega, by omega, by omega, by omega, by omega, by omega, ?_⟩
  · intro hu
    rcases h.1.1.1.1.1.2 with hx | hx
    · simp [hu] at hx
    · exact hx
  · intro hu
    rcases h.2.2 with hx | hx
    · simp [hu] at hx
    · omega

end Sys2Proof.Machine
end

