-- ==== Sys2Proof/Laws/PerInstr.lean ====
section
/-! SUPPORT. Statements for all instructions, made per instruction. -/

/-- Bits [31:8] of every operation's command word are 0, whatever the parameters (30_encoding R100). -/
def Sys2Proof.Laws.ReservedBitsZero.Statement (i : Sys2Proof.Instr) : Prop :=
  ∀ c : Sys2Proof.Config, Sys2Proof.fieldReserved (Sys2Proof.encode c i) = 0

/-- The data-channel words keep bits [31:8] clear for every sample type. -/
theorem Sys2Proof.fieldReserved_code (t : Sys2Proof.RgbType) (w : Sys2Proof.Word)
    (h : Sys2Proof.fieldReserved w = 0) : Sys2Proof.fieldReserved (w ||| (Sys2Proof.RgbType.code t <<< 3)) = 0 := by
  unfold Sys2Proof.fieldReserved at h ⊢
  rw [BitVec.extractLsb'_or, h]
  cases t <;> decide

theorem Sys2Proof.Laws.ReservedBitsZero.i420ToRgb8 : Sys2Proof.Laws.ReservedBitsZero.Statement .i420ToRgb8 := by
  intro c
  simp only [Sys2Proof.encode]
  decide

theorem Sys2Proof.Laws.ReservedBitsZero.i420ToRgbf : Sys2Proof.Laws.ReservedBitsZero.Statement .i420ToRgbf := by
  intro c
  simp only [Sys2Proof.encode]
  decide

theorem Sys2Proof.Laws.ReservedBitsZero.i420ToRgba8 : Sys2Proof.Laws.ReservedBitsZero.Statement .i420ToRgba8 := by
  intro c
  simp only [Sys2Proof.encode]
  decide

theorem Sys2Proof.Laws.ReservedBitsZero.i420ToRgbaf : Sys2Proof.Laws.ReservedBitsZero.Statement .i420ToRgbaf := by
  intro c
  simp only [Sys2Proof.encode]
  decide

theorem Sys2Proof.Laws.ReservedBitsZero.yv12ToRgb8 : Sys2Proof.Laws.ReservedBitsZero.Statement .yv12ToRgb8 := by
  intro c
  simp only [Sys2Proof.encode]
  decide

theorem Sys2Proof.Laws.ReservedBitsZero.yv12ToRgbf : Sys2Proof.Laws.ReservedBitsZero.Statement .yv12ToRgbf := by
  intro c
  simp only [Sys2Proof.encode]
  decide

theorem Sys2Proof.Laws.ReservedBitsZero.yv12ToRgba8 : Sys2Proof.Laws.ReservedBitsZero.Statement .yv12ToRgba8 := by
  intro c
  simp only [Sys2Proof.encode]
  decide

theorem Sys2Proof.Laws.ReservedBitsZero.yv12ToRgbaf : Sys2Proof.Laws.ReservedBitsZero.Statement .yv12ToRgbaf := by
  intro c
  simp only [Sys2Proof.encode]
  decide

theorem Sys2Proof.Laws.ReservedBitsZero.nv12ToRgb8 : Sys2Proof.Laws.ReservedBitsZero.Statement .nv12ToRgb8 := by
  intro c
  simp only [Sys2Proof.encode]
  decide

theorem Sys2Proof.Laws.ReservedBitsZero.nv12ToRgbf : Sys2Proof.Laws.ReservedBitsZero.Statement .nv12ToRgbf := by
  intro c
  simp only [Sys2Proof.encode]
  decide

theorem Sys2Proof.Laws.ReservedBitsZero.nv12ToRgba8 : Sys2Proof.Laws.ReservedBitsZero.Statement .nv12ToRgba8 := by
  intro c
  simp only [Sys2Proof.encode]
  decide

theorem Sys2Proof.Laws.ReservedBitsZero.nv12ToRgbaf : Sys2Proof.Laws.ReservedBitsZero.Statement .nv12ToRgbaf := by
  intro c
  simp only [Sys2Proof.encode]
  decide

theorem Sys2Proof.Laws.ReservedBitsZero.yuyvToRgb8 : Sys2Proof.Laws.ReservedBitsZero.Statement .yuyvToRgb8 := by
  intro c
  simp only [Sys2Proof.encode]
  decide

theorem Sys2Proof.Laws.ReservedBitsZero.yuyvToRgbf : Sys2Proof.Laws.ReservedBitsZero.Statement .yuyvToRgbf := by
  intro c
  simp only [Sys2Proof.encode]
  decide

theorem Sys2Proof.Laws.ReservedBitsZero.yuyvToRgba8 : Sys2Proof.Laws.ReservedBitsZero.Statement .yuyvToRgba8 := by
  intro c
  simp only [Sys2Proof.encode]
  decide

theorem Sys2Proof.Laws.ReservedBitsZero.yuyvToRgbaf : Sys2Proof.Laws.ReservedBitsZero.Statement .yuyvToRgbaf := by
  intro c
  simp only [Sys2Proof.encode]
  decide

theorem Sys2Proof.Laws.ReservedBitsZero.yvyuToRgb8 : Sys2Proof.Laws.ReservedBitsZero.Statement .yvyuToRgb8 := by
  intro c
  simp only [Sys2Proof.encode]
  decide

theorem Sys2Proof.Laws.ReservedBitsZero.yvyuToRgbf : Sys2Proof.Laws.ReservedBitsZero.Statement .yvyuToRgbf := by
  intro c
  simp only [Sys2Proof.encode]
  decide

theorem Sys2Proof.Laws.ReservedBitsZero.yvyuToRgba8 : Sys2Proof.Laws.ReservedBitsZero.Statement .yvyuToRgba8 := by
  intro c
  simp only [Sys2Proof.encode]
  decide

theorem Sys2Proof.Laws.ReservedBitsZero.yvyuToRgbaf : Sys2Proof.Laws.ReservedBitsZero.Statement .yvyuToRgbaf := by
  intro c
  simp only [Sys2Proof.encode]
  decide

theorem Sys2Proof.Laws.ReservedBitsZero.uyvyToRgb8 : Sys2Proof.Laws.ReservedBitsZero.Statement .uyvyToRgb8 := by
  intro c
  simp only [Sys2Proof.encode]
  decide

theorem Sys2Proof.Laws.ReservedBitsZero.uyvyToRgbf : Sys2Proof.Laws.ReservedBitsZero.Statement .uyvyToRgbf := by
  intro c
  simp only [Sys2Proof.encode]
  decide

theorem Sys2Proof.Laws.ReservedBitsZero.uyvyToRgba8 : Sys2Proof.Laws.ReservedBitsZero.Statement .uyvyToRgba8 := by
  intro c
  simp only [Sys2Proof.encode]
  decide

theorem Sys2Proof.Laws.ReservedBitsZero.uyvyToRgbaf : Sys2Proof.Laws.ReservedBitsZero.Statement .uyvyToRgbaf := by
  intro c
  simp only [Sys2Proof.encode]
  decide

theorem Sys2Proof.Laws.ReservedBitsZero.rgb8ToI420 : Sys2Proof.Laws.ReservedBitsZero.Statement .rgb8ToI420 := by
  intro c
  simp only [Sys2Proof.encode]
  decide

theorem Sys2Proof.Laws.ReservedBitsZero.rgbfToI420 : Sys2Proof.Laws.ReservedBitsZero.Statement .rgbfToI420 := by
  intro c
  simp only [Sys2Proof.encode]
  decide

theorem Sys2Proof.Laws.ReservedBitsZero.rgba8ToI420 : Sys2Proof.Laws.ReservedBitsZero.Statement .rgba8ToI420 := by
  intro c
  simp only [Sys2Proof.encode]
  decide

theorem Sys2Proof.Laws.ReservedBitsZero.rgbafToI420 : Sys2Proof.Laws.ReservedBitsZero.Statement .rgbafToI420 := by
  intro c
  simp only [Sys2Proof.encode]
  decide

theorem Sys2Proof.Laws.ReservedBitsZero.rgb8ToYv12 : Sys2Proof.Laws.ReservedBitsZero.Statement .rgb8ToYv12 := by
  intro c
  simp only [Sys2Proof.encode]
  decide

theorem Sys2Proof.Laws.ReservedBitsZero.rgbfToYv12 : Sys2Proof.Laws.ReservedBitsZero.Statement .rgbfToYv12 := by
  intro c
  simp only [Sys2Proof.encode]
  decide

theorem Sys2Proof.Laws.ReservedBitsZero.rgba8ToYv12 : Sys2Proof.Laws.ReservedBitsZero.Statement .rgba8ToYv12 := by
  intro c
  simp only [Sys2Proof.encode]
  decide

theorem Sys2Proof.Laws.ReservedBitsZero.rgbafToYv12 : Sys2Proof.Laws.ReservedBitsZero.Statement .rgbafToYv12 := by
  intro c
  simp only [Sys2Proof.encode]
  decide

theorem Sys2Proof.Laws.ReservedBitsZero.rgb8ToNv12 : Sys2Proof.Laws.ReservedBitsZero.Statement .rgb8ToNv12 := by
  intro c
  simp only [Sys2Proof.encode]
  decide

theorem Sys2Proof.Laws.ReservedBitsZero.rgbfToNv12 : Sys2Proof.Laws.ReservedBitsZero.Statement .rgbfToNv12 := by
  intro c
  simp only [Sys2Proof.encode]
  decide

theorem Sys2Proof.Laws.ReservedBitsZero.rgba8ToNv12 : Sys2Proof.Laws.ReservedBitsZero.Statement .rgba8ToNv12 := by
  intro c
  simp only [Sys2Proof.encode]
  decide

theorem Sys2Proof.Laws.ReservedBitsZero.rgbafToNv12 : Sys2Proof.Laws.ReservedBitsZero.Statement .rgbafToNv12 := by
  intro c
  simp only [Sys2Proof.encode]
  decide

theorem Sys2Proof.Laws.ReservedBitsZero.rgb8ToI420Embed (flip : Bool) :
    Sys2Proof.Laws.ReservedBitsZero.Statement (.rgb8ToI420Embed flip) := by
  intro c
  cases flip <;> exact Sys2Proof.fieldReserved_code _ _ (by decide)

theorem Sys2Proof.Laws.ReservedBitsZero.nv12ToRgba8Extract :
    Sys2Proof.Laws.ReservedBitsZero.Statement .nv12ToRgba8Extract := by
  intro c
  exact Sys2Proof.fieldReserved_code _ _ (by decide)
end

