-- ==== Sys2Proof/Tests/Slice0.lean ====
section
/-! SUPPORT. Tests. Expected values come from the spec's tables and examples, named in each comment. -/

namespace Sys2Proof.Tests

open Sys2Proof.Machine

/- The tests are checked one after another, so that few threads share the memory. -/
set_option Elab.async false

/-! ### Well-formedness: one ill-formed term per check (00_scope R5, 30_encoding R111) -/

theorem test_default_wellFormed : Config.default.wellFormed = true := by decide

theorem test_illFormed_refused :
    [{ Config.default with addrW := 31 }, { Config.default with addrW := 65 }, { Config.default with base := 0x80 },
      { Config.default with red := 0 }, { Config.default with shift := 9 }, { Config.default with thresh := 63 },
      { Config.default with oneLevel := 127 }].map Config.wellFormed
      = [false, false, false, false, false, false, false] := by decide

theorem test_unsupported_instr_illFormed :
    Instr.wellFormed { Config.default with supported := [.i420ToRgb8] } .i420ToRgbf = false := by decide

/-! ### Decoding: every row of 30_encoding R110, and words written bit by bit from R100 to R102 -/

theorem test_decode_yuvToRgb_rows :
    [0x00000000, 0x00000008, 0x00000010, 0x00000018, 0x00000001, 0x00000009, 0x00000011, 0x00000019, 0x00000002,
      0x0000000A, 0x00000012, 0x0000001A, 0x00000003, 0x0000000B, 0x00000013, 0x0000001B, 0x00000004, 0x0000000C,
      0x00000014, 0x0000001C, 0x00000005, 0x0000000D, 0x00000015, 0x0000001D].map (decodeTableWord 32)
      = [Instr.i420ToRgb8, .i420ToRgbf, .i420ToRgba8, .i420ToRgbaf, .yv12ToRgb8, .yv12ToRgbf, .yv12ToRgba8,
          .yv12ToRgbaf, .nv12ToRgb8, .nv12ToRgbf, .nv12ToRgba8, .nv12ToRgbaf, .yuyvToRgb8, .yuyvToRgbf, .yuyvToRgba8,
          .yuyvToRgbaf, .yvyuToRgb8, .yvyuToRgbf, .yvyuToRgba8, .yvyuToRgbaf, .uyvyToRgb8, .uyvyToRgbf,
          .uyvyToRgba8, .uyvyToRgbaf].map some := by decide

theorem test_decode_rgbToYuv_rows :
    [0x00000020, 0x00000028, 0x00000030, 0x00000038, 0x00000021, 0x00000029, 0x00000031, 0x00000039, 0x00000022,
      0x0000002A, 0x00000032, 0x0000003A].map (decodeTableWord 32)
      = [Instr.rgb8ToI420, .rgbfToI420, .rgba8ToI420, .rgbafToI420, .rgb8ToYv12, .rgbfToYv12, .rgba8ToYv12,
          .rgbafToYv12, .rgb8ToNv12, .rgbfToNv12, .rgba8ToNv12, .rgbafToNv12].map some := by decide

theorem test_decode_dataChannel_rows :
    [0x00000060, 0x000000E0, 0x00000052].map (decodeTableWord 32)
      = [Instr.rgb8ToI420Embed false, .rgb8ToI420Embed true, .nv12ToRgba8Extract].map some := by decide

/-- Reserved bits, FLIP, AUX, DIR, RGBT, YFMT from the left: UYVY to RGBF, RGBA8 to NV12, the flipped embed. -/
theorem test_decode_bit_by_bit :
    [0b000000000000000000000000_0_0_0_01_101, 0b000000000000000000000000_0_0_1_10_010,
      0b000000000000000000000000_1_1_1_00_000].map (decodeTableWord 32)
      = [some .uyvyToRgbf, some .rgba8ToNv12, some (.rgb8ToI420Embed true)] := by decide

/-- V60 to V64 and R112: each illegal word is rejected under its own name. -/
theorem test_decode_rejects :
    [0x100, 0x06, 0x07, 0x80, 0x23, 0x42, 0xD2, 0x61].map
        (fun w => match decode Config.default (BitVec.ofNat 32 w) with | .error e => some e | .ok _ => none)
      = [DecodeReject.reservedBits, .reservedYfmt, .reservedYfmt, .flipOutsideEmbed, .packedDestination,
          .auxCombination, .flipOutsideEmbed, .auxCombination].map some := by decide

/-- R110: another EMBED_TYPE or EXTRACT_TYPE moves its row. -/
theorem test_encode_moved_rows :
    encode { Config.default with embedType := .rgbaf } (.rgb8ToI420Embed false) = 0x78
      ∧ encode { Config.default with extractType := .rgbf } .nv12ToRgba8Extract = 0x4A := by decide

/-! ### One operation on a small frame -/

/-- Bytes from an address up, over empty memory. -/
def bytesAt (a : Nat) (l : List Byte) : Memory := Memory.writeAll [] (l.zipIdx.map fun p => (a + p.2, p.1))

/-- A binary32 word as its four bytes in memory. -/
def le (w : Word) : List Byte := [w.extractLsb' 0 8, w.extractLsb' 8 8, w.extractLsb' 16 8, w.extractLsb' 24 8]

/-- A 2 by 2 frame at 0x1000, converted to 0x2000. -/
def ctx22 (cmd : Word) : Ctx := { cmd := cmd, w := 2, h := 2, auxlen := 0, src := 0x1000, dst := 0x2000, aux := 0 }

/-- A BUSY core with a latched context and memory. -/
def busyWith (x : Ctx) (m : Memory) : State := { State.reset with phase := .busy, ctx := x, mem := m }

/-- A BUSY core on a 2 by 2 frame. -/
def busy22 (cmd : Word) (l : List Byte) : State := busyWith (ctx22 cmd) (bytesAt 0x1000 l)

/-- `n` bytes from 0x2000 after an outcome, with the code and AUX_COUNT. -/
def seen (o : Host.Outcome State Fault Refusal) (n : Nat) : Option (List Byte × StatusCode × Word) :=
  match o with
  | .next t => some ((List.range n).map fun k => t.mem.read (0x2000 + k), t.code, t.auxCount)
  | _ => none

/-- The bytes a successful conversion leaves. -/
def wrote (l : List Byte) : Option (List Byte × StatusCode × Word) := some (l, .success, 0)

/-- The source frames of the examples of 41_yuv_to_rgb. -/
def srcI420 : List Byte := [0x10, 0xEB, 0x51, 0x91, 0x5A, 0xF0]
def srcYv12 : List Byte := [0x10, 0xEB, 0x51, 0x91, 0xF0, 0x5A]
def srcYuyv : List Byte := [0x10, 0x5A, 0xEB, 0xF0, 0x51, 0x5A, 0x91, 0xF0]
def srcYvyu : List Byte := [0x10, 0xF0, 0xEB, 0x5A, 0x51, 0xF0, 0x91, 0x5A]
def srcUyvy : List Byte := [0x5A, 0x10, 0xF0, 0xEB, 0x5A, 0x51, 0xF0, 0x91]

/-- The destination bytes of the examples of 41_yuv_to_rgb (pixels (0,0) and (1,0) for the binary32 types). -/
def outRgb8 : List Byte := [0xAD, 0, 0, 0xFF, 0xA8, 0xA8, 0xEE, 0x0E, 0x0E, 0xFF, 0x4E, 0x4E]
def outRgba8 : List Byte := [0xAD, 0, 0, 0xFF, 0xFF, 0xA8, 0xA8, 0xFF, 0xEE, 0x0E, 0x0E, 0xFF, 0xFF, 0x4E, 0x4E, 0xFF]
def outRgbf : List Byte := le 0x432D0625 ++ le 0 ++ le 0 ++ le 0x437F0000 ++ le 0x4328180C ++ le 0x4327A9FC
def outRgbaf : List Byte :=
  le 0x432D0625 ++ le 0 ++ le 0 ++ le 0x437F0000 ++ le 0x437F0000 ++ le 0x4328180C ++ le 0x4327A9FC ++ le 0x437F0000

/-- The example of R210. -/
theorem test_i420ToRgb8 : seen (exec .i420ToRgb8 (busy22 0x00 srcI420)) 12 = wrote outRgb8 := by
  decide +kernel

/-- The example of R211. -/
theorem test_i420ToRgbf : seen (exec .i420ToRgbf (busy22 0x08 srcI420)) 24 = wrote outRgbf := by
  decide +kernel

/-- The example of R212. -/
theorem test_i420ToRgba8 : seen (exec .i420ToRgba8 (busy22 0x10 srcI420)) 16 = wrote outRgba8 := by
  decide +kernel

/-- The example of R213. -/
theorem test_i420ToRgbaf : seen (exec .i420ToRgbaf (busy22 0x18 srcI420)) 32 = wrote outRgbaf := by
  decide +kernel

/-- The example of R214. -/
theorem test_yv12ToRgb8 : seen (exec .yv12ToRgb8 (busy22 0x01 srcYv12)) 12 = wrote outRgb8 := by
  decide +kernel

/-- The example of R215. -/
theorem test_yv12ToRgbf : seen (exec .yv12ToRgbf (busy22 0x09 srcYv12)) 24 = wrote outRgbf := by
  decide +kernel

/-- The example of R216. -/
theorem test_yv12ToRgba8 : seen (exec .yv12ToRgba8 (busy22 0x11 srcYv12)) 16 = wrote outRgba8 := by
  decide +kernel

/-- The example of R217. -/
theorem test_yv12ToRgbaf : seen (exec .yv12ToRgbaf (busy22 0x19 srcYv12)) 32 = wrote outRgbaf := by
  decide +kernel

/-- The example of R218. -/
theorem test_nv12ToRgb8 : seen (exec .nv12ToRgb8 (busy22 0x02 srcI420)) 12 = wrote outRgb8 := by
  decide +kernel

/-- The example of R219. -/
theorem test_nv12ToRgbf : seen (exec .nv12ToRgbf (busy22 0x0A srcI420)) 24 = wrote outRgbf := by
  decide +kernel

/-- The example of R220. -/
theorem test_nv12ToRgba8 : seen (exec .nv12ToRgba8 (busy22 0x12 srcI420)) 16 = wrote outRgba8 := by
  decide +kernel

/-- The example of R221. -/
theorem test_nv12ToRgbaf : seen (exec .nv12ToRgbaf (busy22 0x1A srcI420)) 32 = wrote outRgbaf := by
  decide +kernel

/-- The example of R222. -/
theorem test_yuyvToRgb8 : seen (exec .yuyvToRgb8 (busy22 0x03 srcYuyv)) 12 = wrote outRgb8 := by
  decide +kernel

/-- The example of R223. -/
theorem test_yuyvToRgbf : seen (exec .yuyvToRgbf (busy22 0x0B srcYuyv)) 24 = wrote outRgbf := by
  decide +kernel

/-- The example of R224. -/
theorem test_yuyvToRgba8 : seen (exec .yuyvToRgba8 (busy22 0x13 srcYuyv)) 16 = wrote outRgba8 := by
  decide +kernel

/-- The example of R225. -/
theorem test_yuyvToRgbaf : seen (exec .yuyvToRgbaf (busy22 0x1B srcYuyv)) 32 = wrote outRgbaf := by
  decide +kernel

/-- The example of R226. -/
theorem test_yvyuToRgb8 : seen (exec .yvyuToRgb8 (busy22 0x04 srcYvyu)) 12 = wrote outRgb8 := by
  decide +kernel

/-- The example of R227. -/
theorem test_yvyuToRgbf : seen (exec .yvyuToRgbf (busy22 0x0C srcYvyu)) 24 = wrote outRgbf := by
  decide +kernel

/-- The example of R228. -/
theorem test_yvyuToRgba8 : seen (exec .yvyuToRgba8 (busy22 0x14 srcYvyu)) 16 = wrote outRgba8 := by
  decide +kernel

/-- The example of R229. -/
theorem test_yvyuToRgbaf : seen (exec .yvyuToRgbaf (busy22 0x1C srcYvyu)) 32 = wrote outRgbaf := by
  decide +kernel

/-- The example of R230. -/
theorem test_uyvyToRgb8 : seen (exec .uyvyToRgb8 (busy22 0x05 srcUyvy)) 12 = wrote outRgb8 := by
  decide +kernel

/-- The example of R231. -/
theorem test_uyvyToRgbf : seen (exec .uyvyToRgbf (busy22 0x0D srcUyvy)) 24 = wrote outRgbf := by
  decide +kernel

/-- The example of R232. -/
theorem test_uyvyToRgba8 : seen (exec .uyvyToRgba8 (busy22 0x15 srcUyvy)) 16 = wrote outRgba8 := by
  decide +kernel

/-- The example of R233. -/
theorem test_uyvyToRgbaf : seen (exec .uyvyToRgbaf (busy22 0x1D srcUyvy)) 32 = wrote outRgbaf := by
  decide +kernel

/-- The pixels of the examples of 42_rgb_to_yuv, channel by channel, with alpha 0 for four channels. -/
def pix8 : List Byte := [0xFF, 0, 0, 0xFA, 0x80, 0x0A, 0, 0, 0xFF, 0x14, 0xC8, 0x3C]
def pixA8 : List Byte := [0xFF, 0, 0, 0, 0xFA, 0x80, 0x0A, 0, 0, 0, 0xFF, 0, 0x14, 0xC8, 0x3C, 0]
def pixF : List Byte :=
  [0x437F0000, 0, 0, 0x437A0000, 0x43000000, 0x41200000, 0, 0, 0x437F0000, 0x41A00000, 0x43480000, 0x42700000].flatMap le
def pixAF : List Byte :=
  [0x437F0000, 0, 0, 0, 0x437A0000, 0x43000000, 0x41200000, 0, 0, 0, 0x437F0000, 0, 0x41A00000, 0x43480000, 0x42700000,
    0].flatMap le

/-- The example of R250. -/
theorem test_rgb8ToI420 : seen (exec .rgb8ToI420 (busy22 0x20 pix8)) 6
    = wrote [0x4C, 0x97, 0x1D, 0x82, 0x77, 0x99] := by decide +kernel

/-- The example of R251. -/
theorem test_rgbfToI420 : seen (exec .rgbfToI420 (busy22 0x28 pixF)) 6
    = wrote [0x4C, 0x97, 0x1D, 0x82, 0x77, 0x99] := by decide +kernel

/-- The example of R252. -/
theorem test_rgba8ToI420 : seen (exec .rgba8ToI420 (busy22 0x30 pixA8)) 6
    = wrote [0x4C, 0x97, 0x1D, 0x82, 0x77, 0x99] := by decide +kernel

/-- The example of R253. -/
theorem test_rgbafToI420 : seen (exec .rgbafToI420 (busy22 0x38 pixAF)) 6
    = wrote [0x4C, 0x97, 0x1D, 0x82, 0x77, 0x99] := by decide +kernel

/-- The example of R254. -/
theorem test_rgb8ToYv12 : seen (exec .rgb8ToYv12 (busy22 0x21 pix8)) 6
    = wrote [0x4C, 0x97, 0x1D, 0x82, 0x99, 0x77] := by decide +kernel

/-- The example of R255. -/
theorem test_rgbfToYv12 : seen (exec .rgbfToYv12 (busy22 0x29 pixF)) 6
    = wrote [0x4C, 0x97, 0x1D, 0x82, 0x99, 0x77] := by decide +kernel

/-- The example of R256. -/
theorem test_rgba8ToYv12 : seen (exec .rgba8ToYv12 (busy22 0x31 pixA8)) 6
    = wrote [0x4C, 0x97, 0x1D, 0x82, 0x99, 0x77] := by decide +kernel

/-- The example of R257. -/
theorem test_rgbafToYv12 : seen (exec .rgbafToYv12 (busy22 0x39 pixAF)) 6
    = wrote [0x4C, 0x97, 0x1D, 0x82, 0x99, 0x77] := by decide +kernel

/-- The example of R258. -/
theorem test_rgb8ToNv12 : seen (exec .rgb8ToNv12 (busy22 0x22 pix8)) 6
    = wrote [0x4C, 0x97, 0x1D, 0x82, 0x77, 0x99] := by decide +kernel

/-- The example of R259. -/
theorem test_rgbfToNv12 : seen (exec .rgbfToNv12 (busy22 0x2A pixF)) 6
    = wrote [0x4C, 0x97, 0x1D, 0x82, 0x77, 0x99] := by decide +kernel

/-- The example of R260. -/
theorem test_rgba8ToNv12 : seen (exec .rgba8ToNv12 (busy22 0x32 pixA8)) 6
    = wrote [0x4C, 0x97, 0x1D, 0x82, 0x77, 0x99] := by decide +kernel

/-- The example of R261. -/
theorem test_rgbafToNv12 : seen (exec .rgbafToNv12 (busy22 0x3A pixAF)) 6
    = wrote [0x4C, 0x97, 0x1D, 0x82, 0x77, 0x99] := by decide +kernel

/-! ### The data channel (43_data_channel R285, R290), with RED = 1 so that a small frame carries bits -/

/-- RED = 1, under the policy TRUNCATE. -/
def cfgRed1 : Config := { Config.default with red := 1, capPolicy := .truncate }

/-- A 4 by 4 grey RGB8 frame at 0x1000 and the auxiliary byte 0xC5 at 0x500 (compare V47: capBits 4, grey natural U 0x80). -/
def embed44 (cmd : Word) : State :=
  { busyWith { cmd := cmd, w := 4, h := 4, auxlen := 1, src := 0x1000, dst := 0x2000, aux := 0x500 }
      (Memory.write (bytesAt 0x1000 (List.replicate 48 0x80)) 0x500 0xC5) with cfg := cfgRed1 }

/-- R281, R285: the first four bits 1 1 0 0 are embedded, no whole byte is counted, Y and V stay 0x80. -/
theorem test_rgb8ToI420Embed : seen (exec (.rgb8ToI420Embed false) (embed44 0x60)) 24
    = some (List.replicate 16 0x80 ++ [0xFF, 0xFF, 0x20, 0x20] ++ List.replicate 4 0x80, .success, 0) := by
  decide +kernel

/-- R272: with FLIP the bits 1 1 lie in chroma row 1 and the bits 0 0 in row 0. -/
theorem test_rgb8ToI420Embed_flip : seen (exec (.rgb8ToI420Embed true) (embed44 0xE0)) 24
    = some (List.replicate 16 0x80 ++ [0x20, 0x20, 0xFF, 0xFF] ++ List.replicate 4 0x80, .success, 0) := by
  decide +kernel

/-- An 8 by 4 NV12 frame whose eight U samples are FF FF 20 20 20 FF 20 FF (the bits of 0xC5) and V 0x80. -/
def extract84 : State :=
  { busyWith { cmd := 0x52, w := 8, h := 4, auxlen := 1, src := 0x1000, dst := 0x4000, aux := 0x2000 }
      (bytesAt 0x1020 [0xFF, 0x80, 0xFF, 0x80, 0x20, 0x80, 0x20, 0x80, 0x20, 0x80, 0xFF, 0x80, 0x20, 0x80, 0xFF, 0x80])
    with cfg := { cfgRed1 with capPolicy := .fail } }

/-- R278, R279, R290: the extracted byte is 0xC5 and AUX_COUNT is 1. -/
theorem test_nv12ToRgba8Extract :
    seen (exec .nv12ToRgba8Extract extract84) 2 = some ([0xC5, 0], .success, 1) := by decide +kernel

/-- V45: the pixel of a stored (128, 255, 128) is (128, 84, 255, 255). -/
theorem test_extract_pixel :
    storeRgb Config.default .rgba8 (ctx22 0x52) 0 0 0 (dec bt601Decode { y := 128, u := 255, v := 128 })
      = [(0, 128), (1, 84), (2, 255), (3, 255)] := by decide +kernel

/-! ### The Pixel Transform and the codec (95_test_vectors V1 to V19, V40 to V44) -/

theorem test_dec_V2 : dec bt601Decode { y := 255, u := 255, v := 255 }
    = { r := 433054 / 1000, g := 120599456 / 1000000, b := 480044 / 1000 } := by decide +kernel

theorem test_enc_V17g : enc bt601Encode { r := 300, g := -5, b := 128 }
    = { y := 101357 / 1000, u := 14303552 / 100000, v := 269685504 / 1000000 } := by decide +kernel

theorem test_q8_V18a : [1 / 2, 3 / 2, 509 / 2, 511 / 2, -3 / 10, -1 / 2].map q8 = [1, 2, 255, 255, 0, 0] := by
  decide +kernel

theorem test_qf_V18b : [254054 / 1000, 0, -7, 255, 999, 128, 1 / 2].map (qf .full255)
    = [0x437E0DD3, 0, 0, 0x437F0000, 0x437F0000, 0x43000000, 0x3F000000] := by decide +kernel

theorem test_qf_V18c : [255, 128, 0, 254054 / 1000].map (qf .one)
    = [0x3F800000, 0x3F008081, 0, 0x3F7F0CE0] := by decide +kernel

theorem test_f32_V19 : [0x437F0000, 0xC0A00000, 0x00000001, 0x80000000, 0x7F800000, 0x7FC00000].map f32
    = [some 255, some (-5), some (1 / 2 ^ 149), some 0, none, none] := by decide +kernel

/-- V32: out-of-range and subnormal float input. -/
theorem test_rgbfToI420_V32 : seen (exec .rgbfToI420 (busy22 0x28
      ([0x43960000, 0xC0A00000, 0x43000000, 0x437F0000, 0, 0, 0x3F000000, 0x3F000000, 0x3F000000, 1, 0x437E8000,
        0x80000000].flatMap le))) 6 = wrote [0x65, 0x4C, 0x01, 0x95, 0x64, 0xA9] := by decide +kernel

theorem test_capacity_V40 :
    [(2, 2), (8, 8), (12, 12), (16, 16), (64, 64), (1920, 1080)].map
        (fun p => (capBits Config.default { Ctx.zero with w := p.1, h := p.2 },
          capBytes Config.default { Ctx.zero with w := p.1, h := p.2 }))
      = [(0, 0), (2, 0), (4, 0), (8, 1), (128, 16), (64800, 8100)] := by decide

theorem test_place_V41 :
    [0, 7, 8, 63].map (fun k => (place { Ctx.zero with w := 16, h := 16 } k false,
        place { Ctx.zero with w := 16, h := 16 } k true))
      = [((0, 0), (0, 7)), ((7, 0), (7, 7)), ((0, 1), (0, 6)), ((7, 7), (7, 0))] := by decide

theorem test_votes_V44 :
    [[255, 255, 255, 255, 255, 32, 32, 32], [255, 255, 255, 255, 32, 32, 32, 32], List.replicate 8 0x80,
      List.replicate 8 0x7F].map (fun l : List Byte => decodeBit Config.default (fun k => l.getD k 0) 0)
      = [true, false, true, false] := by decide

/-! ### Registers, status codes and the step (95_test_vectors V60 to V85) -/

/-- What a step leaves in STATUS, and whether memory is as before. -/
def statusAfter (s : State) : Option (Word × Bool) :=
  match step s with
  | .next t => some (statusWord t, decide (t.mem = s.mem))
  | _ => none

/-- V60 to V65: illegal words complete with UNSUPPORTED, before any other check. -/
theorem test_V60_V65 :
    [0x23, 0x06, 0x100, 0x80, 0x42].map (fun w => statusAfter (busyWith { ctx22 w with src := 0, w := 3 } []))
      = List.replicate 5 (some (0x22, true)) := by decide +kernel

/-- V66 to V70 and V72: each failing check completes with INVALID_ARGUMENT. -/
theorem test_V66_V72 :
    [busyWith { ctx22 0 with src := 0 } [], busyWith { ctx22 0 with w := 0 } [],
      busyWith { ctx22 0 with w := 4, h := 5 } [], busyWith { ctx22 8 with dst := 0x2002 } [],
      { busyWith { ctx22 0 with src := 0x100001000 } [] with cfg := { Config.default with addrW := 32 } },
      { busyWith { ctx22 0 with src := 0xFFFFFFFB } [] with cfg := { Config.default with addrW := 32 } }].map statusAfter
      = List.replicate 6 (some (0x12, true)) := by decide +kernel

/-- V71: a region that ends at the top of memory is valid. -/
theorem test_V71 : invalidArgument { Config.default with addrW := 32 } (.yuvToRgb (.sub420 .i420) .rgb8)
    { ctx22 0 with src := 0xFFFFFFFA } = false := by decide

/-- V73, V74: INVALID_ARGUMENT before CAPACITY_EXCEEDED, and CAPACITY_EXCEEDED alone. -/
theorem test_V73_V74 :
    [busyWith { cmd := 0x60, w := 16, h := 16, auxlen := 5, src := 0x1000, dst := 0x2000, aux := 0 } [],
      busyWith { cmd := 0x60, w := 16, h := 16, auxlen := 2, src := 0x1000, dst := 0x2000, aux := 0x500 } []].map
        statusAfter = [some (0x12, true), some (0x32, true)] := by decide +kernel

/-- V75: a device failure completes with code 4. -/
theorem test_V75 : (statusAfter { busy22 0 srcI420 with deviceFault := true }).map Prod.fst = some 0x42 := by
  decide +kernel

/-- V81: a CTRL write of 2 reads back 2 and raises no interrupt. -/
theorem test_V81 : (ctrlWord (writeReg .ctrl 2 State.reset), irq (writeReg .ctrl 2 State.reset)) = (2, false) := by
  decide

/-- V82: acknowledge clears DONE and the interrupt, and a STATUS write of 1 changes nothing. -/
theorem test_V82 :
    (fun s : State => (statusWord s, irq s, statusWord (writeReg .status 2 s), irq (writeReg .status 2 s),
      decide (writeReg .status 1 s = s))) { State.reset with done := true, irqEn := true }
      = (2, true, 0, false, true) := by decide +kernel

/-- P6: after START and before the completion STATUS reads BUSY alone. -/
theorem test_P6_busy : statusWord (start { State.reset with done := true, code := .unsupported }) = 1 := by decide

/-- R120, R121: `W32 CMD` on the bus writes CMD. -/
theorem test_bus_write : (match step { State.reset with inputs := [w32 Config.default .cmd 0xFFFFFFFF] } with
    | .next t => some t.cmd | _ => none) = some 0xFFFFFFFF := by decide +kernel

/-- R24: an access from below BASE that reaches into CTRL is refused, one that ends before it is not the core's. -/
theorem test_R24_from_below :
    [(0xFE, 4), (0xFE, 2)].map (fun p : Nat × Nat =>
      match step { State.reset with
        cfg := { Config.default with base := 0x100 }, inputs := [.busRead (BitVec.ofNat 64 p.1) p.2] } with
      | .refused r => some r
      | _ => none) = [some Refusal.misfitRegisterAccess, none] := by decide +kernel

/-- R43, R69: the regions of `ctx` by the fields of its word, for a failing extract and for a word with reserved YFMT. -/
theorem test_R43_regions :
    [contextRegions { ctx22 0x52 with auxlen := 9 }, contextRegions (ctx22 0x26)]
      = [[{ base := 0x2000, size := 16 }, { base := 0, size := 9 }], [{ base := 0x2000, size := 0 }]] := by decide

/-- R341, U22: without coherence a host store to the source while BUSY frees the output as it stands. -/
theorem test_R341_cached_store :
    (match step { busy22 0 srcI420 with
        cfg := { Config.default with coherent := false }, inputs := [.store 0x1000 [7]] } with
      | .next u => some (u.touched, decide (u.mem = bytesAt 0x1000 srcI420), outputFree (operationOf u.cfg .i420ToRgb8) u)
      | _ => none) = some ([0x1000], true, true) := by decide +kernel

/-- R93, U22: a byte stored to the destination of a failing operation is freed at its completion, no other is. -/
theorem test_R93_rejected : storedCells (fun _ => 0xEE) (contextRegions (ctx22 0))
    { busyWith { ctx22 0 with src := 0 } [] with touched := [0x2000, 0x1000, 0x200B, 0x200C] }
      = [(0x2000, 0xEE), (0x200B, 0xEE)] := by decide +kernel

/-- R319: without coherence a store by another agent reaches memory and the host still loads its own stale copy. -/
theorem test_R319_agentStore :
    (match step { State.reset with
        cfg := { Config.default with coherent := false }, hostCache := [{ addr := 5, byte := 7, dirty := false }]
        inputs := [.agentStore 5 [9], .load 5] } with
      | .next u => (match step u with
        | .next t => some (t.mem, t.hdata)
        | _ => none)
      | _ => none) = some ([(5, 9)], 7) := by decide +kernel

/-- The command a table word places is the one the next step runs, first after reset: SRC is null there. -/
theorem test_withFetchWord : statusAfter (State.reset.withFetchWord 32 0x52) = some (0x12, true) := by decide +kernel

/-! ### Witnesses: for each statement with hypotheses, concrete states and operands that meet all of them together -/

/-- The status code of a next state. -/
def nextCode (o : Host.Outcome State Fault Refusal) : Option StatusCode :=
  match o with
  | .next t => some t.code
  | _ => none

/-- The name of a refusal. -/
def refusalOf (o : Host.Outcome State Fault Refusal) : Option Refusal :=
  match o with
  | .refused r => some r
  | _ => none

theorem next_of_nextCode {o : Host.Outcome State Fault Refusal} {k : StatusCode} (h : nextCode o = some k) :
    ∃ t, o = .next t ∧ t.code = k := by
  cases o <;> simp_all [nextCode]

theorem refused_of_refusalOf {o : Host.Outcome State Fault Refusal} {r : Refusal} (h : refusalOf o = some r) :
    o = .refused r := by
  cases o <;> simp_all [refusalOf]

theorem witness_EncodeOfDecode : decode Config.default 0x000000E0 = .ok (.rgb8ToI420Embed true) := by decide

theorem witness_StepRunsTheLatchedInstruction :
    (busy22 0x1D srcUyvy).phase = .busy ∧ decode Config.default (busy22 0x1D srcUyvy).ctx.cmd = .ok .uyvyToRgbaf
      ∧ (busy22 0x1D srcUyvy).inputs = []
      ∧ ({ busy22 0x1D srcUyvy with inputs := [.core, .reset] } : State).inputs = .core :: [.reset] := by decide +kernel

/-- One word outside SUPPORTED (the first after R110's YUV to RGB words of layout I420), one in it. -/
theorem witness_IllegalWordCompletesUnsupported :
    ((busy22 0x23 []).phase = .busy ∧ (busy22 0x23 []).inputs = []
      ∧ ∀ i ∈ (busy22 0x23 []).cfg.supported, encode (busy22 0x23 []).cfg i ≠ (busy22 0x23 []).ctx.cmd)
    ∧ ((busy22 0x08 []).phase = .busy ∧ Instr.i420ToRgbf ∈ (busy22 0x08 []).cfg.supported
      ∧ encode (busy22 0x08 []).cfg .i420ToRgbf = (busy22 0x08 []).ctx.cmd) := by decide +kernel

/-- One context per item of R133, at the item's boundary value, with the other items false where they can be. -/
theorem witness_InvalidArgumentFails :
    let narrow := { Config.default with addrW := 32 }
    let full := { cmd := 0x52, w := 8, h := 4, auxlen := 1, src := 0x1000, dst := 0x4000, aux := 0x2000 : Ctx }
    Instr.nv12ToRgba8Extract ∈ narrow.supported ∧ Instr.i420ToRgbf ∈ narrow.supported
      ∧ ({ full with src := 0 } : Ctx).src = 0 ∧ ({ full with dst := 0 } : Ctx).dst = 0
      ∧ usesAux (operationOf narrow .nv12ToRgba8Extract) = true ∧ ({ full with aux := 0 } : Ctx).aux = 0
      ∧ ({ full with w := 0 } : Ctx).w = 0 ∧ ({ full with h := 0 } : Ctx).h = 0
      ∧ ({ full with w := 1 } : Ctx).w.toNat % 2 = 1 ∧ ({ full with h := 0xFFFFFFFF } : Ctx).h.toNat % 2 = 1
      ∧ 2 ^ narrow.addrW ≤ ({ full with src := 0x100000000 } : Ctx).src.toNat
      ∧ 2 ^ narrow.addrW ≤ ({ full with dst := 0x100000000 } : Ctx).dst.toNat
      ∧ 2 ^ narrow.addrW ≤ ({ full with aux := 0x100000000 } : Ctx).aux.toNat
      ∧ bytesPerChannel (rgbBuffer (operationOf narrow .i420ToRgbf) { full with dst := 0x4001 }).1 = 4
      ∧ (rgbBuffer (operationOf narrow .i420ToRgbf) { full with dst := 0x4001 }).2 % 4 ≠ 0
      ∧ 2 ^ narrow.addrW < 0xFFFFFFD1 + (srcRegion (operationOf narrow .nv12ToRgba8Extract) full).size
      ∧ 2 ^ narrow.addrW < 0xFFFFFF81 + (dstRegion (operationOf narrow .nv12ToRgba8Extract) full).size
      ∧ 2 ^ narrow.addrW < 0xFFFFFFFF + ({ full with auxlen := 2 } : Ctx).auxlen.toNat := by decide +kernel

/-- A 16 by 16 frame has room for one byte: length 2 exceeds it, length 1 does not, and TRUNCATE takes either. -/
def frame16 (len : Word) : Ctx := { cmd := 0x60, w := 16, h := 16, auxlen := len, src := 0x1000, dst := 0x2000, aux := 0x500 }

theorem witness_CapacityPolicyFail :
    Instr.rgb8ToI420Embed true ∈ Config.default.supported
      ∧ invalidArgument Config.default (.embed .rgb8 true) (frame16 2) = false
      ∧ Config.default.capPolicy = .fail
      ∧ (frame16 2).w.toNat / 2 * ((frame16 2).h.toNat / 2) / Config.default.red / 8 < (frame16 2).auxlen.toNat
      ∧ (frame16 1).auxlen.toNat ≤ (frame16 1).w.toNat / 2 * ((frame16 1).h.toNat / 2) / Config.default.red / 8
      ∧ ({ Config.default with capPolicy := .truncate } : Config).capPolicy = .truncate := by decide +kernel

theorem witness_CapacityPolicyFail_next :
    (∃ t, exec (.rgb8ToI420Embed false) (embed44 0x60) = .next t ∧ t.code = .success)
      ∧ (embed44 0x60).cfg.capPolicy = .truncate :=
  ⟨next_of_nextCode (by decide +kernel), rfl⟩

/-- An instruction that ends with each status code (for the last clause see witness_IllegalWordCompletesUnsupported). -/
theorem witness_ErrorPriority :
    (∃ t, exec .i420ToRgb8 { State.reset with cfg := { Config.default with supported := [] } } = .next t
        ∧ t.code = .unsupported)
    ∧ (∃ t, exec .i420ToRgb8 State.reset = .next t ∧ t.code = .invalidArgument)
    ∧ (∃ t, exec (.rgb8ToI420Embed false) (busyWith (frame16 2) []) = .next t ∧ t.code = .capacityExceeded)
    ∧ (∃ t, exec .i420ToRgb8 { busy22 0 srcI420 with deviceFault := true } = .next t ∧ t.code = .deviceFailure)
    ∧ (∃ t, exec .i420ToRgb8 (busy22 0 srcI420) = .next t ∧ t.code = .success) :=
  ⟨next_of_nextCode (by decide +kernel), next_of_nextCode (by decide +kernel), next_of_nextCode (by decide +kernel),
    next_of_nextCode (by decide +kernel), next_of_nextCode (by decide +kernel)⟩

theorem witness_EarlyErrorsTouchNoMemory :
    ∃ t, exec .i420ToRgb8 State.reset = .next t ∧ t.code = .invalidArgument := next_of_nextCode (by decide +kernel)

theorem witness_ExecFrame :
    (∃ t, exec .nv12ToRgba8Extract extract84 = .next t ∧ t.code = .success) ∧
      inRegions (writeRegions (operationOf extract84.cfg .nv12ToRgba8Extract) extract84.ctx) 0x1020 = false :=
  ⟨next_of_nextCode (by decide +kernel), by decide +kernel⟩

theorem witness_DeviceFailureFreesOutput :
    let s := { extract84 with deviceFault := true }
    Executes .nv12ToRgba8Extract (operationOf s.cfg .nv12ToRgba8Extract) s ∧ s.deviceFault = true ∧ s.mem.wf = true := by
  unfold Executes; decide +kernel

theorem witness_SideEffectBufferRefused :
    let s := { busy22 0 srcI420 with cfg := { Config.default with sideEffects := [{ base := 0x1005, size := 1 }] } }
    Instr.i420ToRgb8 ∈ s.cfg.supported ∧ invalidArgument s.cfg (operationOf s.cfg .i420ToRgb8) s.ctx = false
      ∧ capacityExceeded s.cfg (operationOf s.cfg .i420ToRgb8) s.ctx = false
      ∧ onSideEffects s.cfg (operationOf s.cfg .i420ToRgb8) s.ctx = true := by decide +kernel

/-- Every row of the statement on a 2 by 2 frame, with its last pixel (1, 1). -/
theorem witness_YuvToRgb8Converts :
    (∀ e ∈ yuvToRgb8Rows, Ready e.1 (.yuvToRgb e.2.1 e.2.2) (busy22 0 srcYuyv)) ∧ 1 < (busy22 0 srcYuyv).ctx.w.toNat := by
  unfold Ready Executes Undisturbed; decide +kernel

theorem witness_YuvToRgbFloatConverts :
    (∀ e ∈ yuvToRgbFloatRows, Ready e.1 (.yuvToRgb e.2.1 e.2.2) (busy22 0 srcYuyv)) ∧ 1 < (busy22 0 srcYuyv).ctx.w.toNat := by
  unfold Ready Executes Undisturbed; decide +kernel

/-- Every row of the statement on a 2 by 2 frame of zeros: pixel (1, 1) and block (0, 0) are finite. -/
theorem witness_RgbToYuvConverts :
    (∀ e ∈ rgbToYuvRows, Ready e.1 (.rgbToYuv e.2.1 e.2.2) (busy22 0x20 []))
      ∧ ∀ e ∈ rgbToYuvRows, [(0, 0), (1, 0), (0, 1), (1, 1)].map (fun p => sourceYuv (busy22 0x20 []) e.2.1 p.1 p.2)
        = List.replicate 4 (some { y := 0, u := 128, v := 128 }) := by
  unfold Ready Executes Undisturbed; decide +kernel

theorem witness_EmbedWritesCarriers :
    (Ready (.rgb8ToI420Embed false) (.embed .rgb8 false) (embed44 0x60)
        ∧ Ready (.rgb8ToI420Embed true) (.embed .rgb8 true) (embed44 0xE0))
      ∧ [(2, 2), (3, 2), (2, 3), (3, 3)].map (fun p => sourceYuv (embed44 0x60) .rgb8 p.1 p.2)
        = List.replicate 4 (some { y := 128, u := 128, v := 128 })
      ∧ 3 < (embed44 0x60).ctx.NC ∧ 3 < embedBits cfgRed1 (embed44 0x60).ctx * cfgRed1.red := by
  unfold Ready Executes Undisturbed; decide +kernel

theorem witness_ExtractWritesPixelsAndBytes :
    Ready .nv12ToRgba8Extract (.extract .rgba8) extract84 ∧ 0 < extractBytes extract84.cfg extract84.ctx
      ∧ channels extract84.cfg.extractType = 4 := by
  unfold Ready Executes Undisturbed; decide +kernel

/-- A NaN in the blue channel of pixel (1, 1). -/
def nanFrame : State := busyWith (ctx22 0x28) (bytesAt 0x102C (le 0x7FC00000))

theorem witness_NonFiniteInputLeavesFreeSamples :
    (Instr.rgbfToI420, RgbType.rgbf, Sub420.i420) ∈ rgbToYuvRows ∧ Ready .rgbfToI420 (.rgbToYuv .rgbf .i420) nanFrame
      ∧ sourceYuv nanFrame .rgbf 1 1 = none := by
  unfold Ready Executes Undisturbed; decide +kernel

/-- Stores to the first and the last destination byte of a conversion with a null source. -/
theorem witness_StoreToRejectedDestinationFreesIt :
    ∀ k ∈ [0x2000, 0x200B],
      let a : Addr := BitVec.ofNat 64 k
      let s := { busyWith { ctx22 0 with src := 0 } [] with inputs := [.agentStore a [7]] }
      s.phase = .busy ∧ decode s.cfg s.ctx.cmd = .ok .i420ToRgb8
        ∧ invalidArgument s.cfg (operationOf s.cfg .i420ToRgb8) s.ctx = true ∧ s.mem.wf = true ∧ s.touched = []
        ∧ s.inputs = [.agentStore a [7]] ∧ a.toNat < 2 ^ s.cfg.addrW
        ∧ inRegions (writeRegions (operationOf s.cfg .i420ToRgb8) s.ctx) a.toNat = true := by decide +kernel

/-- The host holds a clean copy of the byte another agent stores to, and loads it, or the agent does. -/
theorem witness_AgentStoreLeavesHostCopy :
    ∀ e ∈ [Input.load 0x1000, .agentLoad 0x1000],
      let s := { State.reset with
        cfg := { Config.default with coherent := false }
        hostCache := [{ addr := 0x1000, byte := 7, dirty := false }]
        inputs := [.agentStore 0x1000 [9], e] }
      s.mem.wf = true ∧ (0x1000 : Addr).toNat < 2 ^ s.cfg.addrW ∧ s.inputs = .agentStore 0x1000 [9] :: [e]
        ∧ s.phase = .idle ∧ s.cfg.coherent = false
        ∧ cachedLine s.hostCache (0x1000 : Addr).toNat = some { addr := 0x1000, byte := 7, dirty := false } := by
  decide +kernel

/-- A NaN in pixel (1, 1) and an infinity in pixel (3, 3) of a 4 by 4 RGBF frame; with RED = 3 the frame carries one bit,
in the U samples of blocks 0 to 2. -/
def nanEmbed : State :=
  { busyWith { cmd := 0x68, w := 4, h := 4, auxlen := 1, src := 0x1000, dst := 0x2000, aux := 0x500 }
      (Memory.writeAll (bytesAt 0x103C (le 0x7FC00000)) ((le 0x7F800000).zipIdx.map fun p => (0x10B4 + p.2, p.1))) with
    cfg := { Config.default with embedType := .rgbf, red := 3, capPolicy := .truncate } }

theorem witness_NonFiniteEmbedFreesNaturalSamples :
    (∀ flip, Ready (.rgb8ToI420Embed flip) (.embed nanEmbed.cfg.embedType flip) nanEmbed)
      ∧ [(1, 1), (3, 3)].map (fun p => sourceYuv nanEmbed nanEmbed.cfg.embedType p.1 p.2) = [none, none]
      ∧ 3 < nanEmbed.ctx.NC ∧ 0 < embedBits nanEmbed.cfg nanEmbed.ctx * nanEmbed.cfg.red
      ∧ ¬ 3 < embedBits nanEmbed.cfg nanEmbed.ctx * nanEmbed.cfg.red := by
  unfold Ready Executes Undisturbed; decide +kernel

/-- The extract of `extract84` onto its own source, and a conversion onto the last byte of its source. -/
theorem witness_OverlapLeavesAnyValue :
    let s := { extract84 with ctx := { extract84.ctx with dst := 0x1000 } }
    let z := busyWith { ctx22 0 with dst := 0x1005 } (bytesAt 0x1000 srcI420)
    (Executes .nv12ToRgba8Extract (operationOf s.cfg .nv12ToRgba8Extract) s ∧ s.deviceFault = false ∧ s.mem.wf = true
        ∧ selfOverlap (operationOf s.cfg .nv12ToRgba8Extract) s.ctx = true ∧ 0 < extractBytes s.cfg s.ctx)
      ∧ Executes .i420ToRgb8 (operationOf z.cfg .i420ToRgb8) z ∧ z.deviceFault = false ∧ z.mem.wf = true
        ∧ selfOverlap (operationOf z.cfg .i420ToRgb8) z.ctx = true := by
  unfold Executes; decide +kernel

/-- A store to the last byte of the source, and one to the last byte of the destination. -/
theorem witness_StoreDuringRunFreesOutput :
    ∀ k ∈ [0x1005, 0x200B],
      let a : Addr := BitVec.ofNat 64 k
      let s := { busy22 0 srcI420 with inputs := [.store a [7]] }
      s.phase = .busy ∧ decode s.cfg s.ctx.cmd = .ok .i420ToRgb8 ∧ Executes .i420ToRgb8 (operationOf s.cfg .i420ToRgb8) s
        ∧ s.deviceFault = false ∧ s.mem.wf = true ∧ s.inputs = [.store a [7]]
        ∧ a.toNat < 2 ^ s.cfg.addrW
        ∧ inRegions (readRegions (operationOf s.cfg .i420ToRgb8) s.ctx ++ writeRegions (operationOf s.cfg .i420ToRgb8) s.ctx)
            a.toNat = true := by
  unfold Executes; decide +kernel

/-- A store to the last auxiliary byte of an extract, into the host's cache. -/
theorem witness_StoreDuringRunFreesOutput_extract :
    let s := { extract84 with cfg := { extract84.cfg with coherent := false }, inputs := [.store 0x2000 [7]] }
    s.phase = .busy ∧ decode s.cfg s.ctx.cmd = .ok .nv12ToRgba8Extract
      ∧ Executes .nv12ToRgba8Extract (operationOf s.cfg .nv12ToRgba8Extract) s
      ∧ s.deviceFault = false ∧ s.mem.wf = true ∧ s.inputs = [.store 0x2000 [7]]
      ∧ (0x2000 : Addr).toNat < 2 ^ s.cfg.addrW ∧ 0 < extractBytes s.cfg s.ctx
      ∧ inRegions (writeRegions (operationOf s.cfg .nv12ToRgba8Extract) s.ctx) (0x2000 : Addr).toNat = true := by
  unfold Executes; decide +kernel

theorem witness_WritesCoverDestinationOnce :
    (∀ t, Operation.embed .rgbaf true ≠ .extract t) ∧ 0 < (ctx22 0).W ∧ 0 < (ctx22 0).H ∧ (ctx22 0).W % 2 = 0
      ∧ (ctx22 0).H % 2 = 0 := ⟨fun _ => by simp, by decide⟩

/-- A successful extract counts one byte; a failed operation counts none; START from IDLE. -/
theorem witness_AuxCountRule :
    State.reset.phase = .idle ∧ (∃ t, exec .i420ToRgb8 State.reset = .next t ∧ t.code = .invalidArgument)
      ∧ ∃ t, exec .nv12ToRgba8Extract extract84 = .next t ∧ t.code = .success :=
  ⟨rfl, next_of_nextCode (by decide +kernel), next_of_nextCode (by decide +kernel)⟩

/-- A block at the top of the bus address space, with one input. -/
def atTop (e : Input) : State :=
  { State.reset with cfg := { Config.default with base := 0xFFFFFFFFFFFFFF00 }, inputs := [e] }

theorem witness_BusReachesRegisters :
    (atTop (.busWrite 0xFFFFFFFFFFFFFF30 4 1)).cfg.base.toNat % 256 = 0
      ∧ (atTop (.busWrite 0xFFFFFFFFFFFFFF30 4 1)).inputs
        = [.busWrite ((atTop .core).cfg.base + BitVec.ofNat 64 (regOffset .auxCount)) 4 1]
      ∧ (atTop (.busRead 0xFFFFFFFFFFFFFF30 4)).inputs
        = [.busRead ((atTop .core).cfg.base + BitVec.ofNat 64 (regOffset .auxCount)) 4] := by decide +kernel

/-- Below a block at 0x100: the last byte before it with two bytes, and the aligned word before it with eight. -/
theorem witness_RegisterAccessRule_below :
    let s := { State.reset with cfg := { Config.default with base := 0x100 }, inputs := [.busRead 0xFF 2] }
    let z := { State.reset with cfg := { Config.default with base := 0x100 }, inputs := [.busWrite 0xFC 8 1] }
    s.cfg.base.toNat % 256 = 0 ∧ (0xFF : BusAddr).toNat < s.cfg.base.toNat
      ∧ s.cfg.base.toNat < (0xFF : BusAddr).toNat + 2 ∧ s.inputs = [.busRead 0xFF 2]
      ∧ (0xFC : BusAddr).toNat < z.cfg.base.toNat ∧ z.cfg.base.toNat < (0xFC : BusAddr).toNat + 8
      ∧ z.inputs = [.busWrite 0xFC 8 1] := by decide +kernel

/-- Addresses of each clause in the block at 0: misfit, first and last reserved, AUX_COUNT, STATUS, CTRL. -/
theorem witness_RegisterAccessRule :
    State.reset.cfg.base.toNat % 256 = 0
      ∧ (∀ k ∈ [0, 0x02, 0x34, 0xFC, 0x30, 0x04, 0xFF],
          State.reset.cfg.base.toNat ≤ (BitVec.ofNat 64 k).toNat
            ∧ (BitVec.ofNat 64 k).toNat < State.reset.cfg.base.toNat + 256)
      ∧ (¬ (2 = 4 ∧ (0 : Addr).toNat % 4 = 0)) ∧ (¬ (4 = 4 ∧ (0x02 : Addr).toNat % 4 = 0))
      ∧ (¬ (1 = 4 ∧ (0xFF : Addr).toNat % 4 = 0))
      ∧ ((0x34 : Addr).toNat % 4 = 0 ∧ State.reset.cfg.base.toNat + 0x34 ≤ (0x34 : Addr).toNat)
      ∧ ((0xFC : Addr).toNat % 4 = 0 ∧ State.reset.cfg.base.toNat + 0x34 ≤ (0xFC : Addr).toNat)
      ∧ (0x30 : Addr).toNat = State.reset.cfg.base.toNat + 0x30 ∧ (0x04 : Addr).toNat = State.reset.cfg.base.toNat + 0x04
      ∧ (0 : Addr).toNat = State.reset.cfg.base.toNat
      ∧ ({ State.reset with inputs := [.busWrite 0x34 4 5] } : State).inputs = [.busWrite 0x34 4 5]
      ∧ ({ State.reset with inputs := [.busRead 0xFC 4] } : State).inputs = [.busRead 0xFC 4] := by decide +kernel

theorem witness_CtrlWriteRule :
    ((3 : Word).getLsbD 0 = true ∧ State.reset.phase = .idle) ∧ ((1 : Word).getLsbD 0 = true ∧ (busy22 0 []).phase = .busy)
      ∧ (2 : Word).getLsbD 0 = false := by decide +kernel

theorem witness_StatusWriteRule :
    (2 : Word).getLsbD 1 = true ∧ (0xFFFFFFFD : Word).getLsbD 1 = false ∧ (busy22 0 []).phase = .busy
      ∧ (busy22 0 []).done = false := by decide +kernel

theorem witness_ParameterRegistersReadBack :
    Reg.auxHi ∈ [Reg.cmd, .width, .height, .auxLen, .srcLo, .srcHi, .dstLo, .dstHi, .auxLo, .auxHi]
      ∧ Reg.auxCount ≠ .auxHi := by decide

theorem witness_InterruptRule :
    (∃ t, exec .i420ToRgb8 State.reset = .next t ∧ t.code = .invalidArgument) ∧ (2 : Word).getLsbD 1 = true
      ∧ (1 : Word).getLsbD 0 = true ∧ State.reset.phase = .idle :=
  ⟨next_of_nextCode (by decide +kernel), by decide⟩

/-- Reset of an idle core, of a word that names no operation, of an operation that fails a check (a destination whose
last eleven bytes pass the top of a 32-bit space), of a running one. -/
theorem witness_ResetInput :
    let past := { busyWith { ctx22 0 with dst := 0xFFFFFFFF } [(5, 1)] with cfg := { Config.default with addrW := 32 } }
    (∀ s ∈ [State.reset, busy22 0x100 [1], past, busy22 0 srcI420],
        ({ s with inputs := [.reset] } : State).inputs = .reset :: [] ∧ s.mem.wf = true)
      ∧ State.reset.phase = .idle
      ∧ (busy22 0x100 [1]).phase = .busy ∧ decode (busy22 0x100 [1]).cfg (busy22 0x100 [1]).ctx.cmd = .error .reservedBits
      ∧ past.phase = .busy ∧ decode past.cfg past.ctx.cmd = .ok .i420ToRgb8
      ∧ invalidArgument past.cfg (operationOf past.cfg .i420ToRgb8) past.ctx = true
      ∧ inRegions (writeRegions (operationOf past.cfg .i420ToRgb8) past.ctx) 0xFFFFFFFF = true
      ∧ 0xFFFFFFFF < 2 ^ past.cfg.addrW
      ∧ inRegions (writeRegions (operationOf past.cfg .i420ToRgb8) past.ctx) 0x100000000 = true
      ∧ ¬ 0x100000000 < 2 ^ past.cfg.addrW
      ∧ (busy22 0 srcI420).phase = .busy
      ∧ decode (busy22 0 srcI420).cfg (busy22 0 srcI420).ctx.cmd = .ok .i420ToRgb8 := by decide +kernel

/-- While idle, a load at the last address of the space. -/
theorem witness_LoadDuringRunIsFree_idle :
    let s := { State.reset with inputs := [.load 0xFFFFFFFFFFFFFFFF] }
    s.inputs = .load 0xFFFFFFFFFFFFFFFF :: [] ∧ (0xFFFFFFFFFFFFFFFF : Addr).toNat < 2 ^ s.cfg.addrW ∧ s.phase = .idle
      ∧ s.cfg.coherent = true ∧ cachedLine s.hostCache (0xFFFFFFFFFFFFFFFF : Addr).toNat = none := by decide +kernel

/-- BUSY with an operation that fails a check (a null source), without coherence, with a cached byte at `k`; the host
loads that byte. -/
def cachedLoad (k : Nat) : State :=
  { busyWith { ctx22 0 with src := 0 } [] with
    cfg := { Config.default with coherent := false }
    hostCache := [{ addr := k, byte := 7, dirty := false }]
    inputs := [.load (BitVec.ofNat 64 k)] }

/-- A load of the destination's first byte, and of the byte before it. -/
theorem witness_LoadDuringRunIsFree :
    ∀ p ∈ [(0x2000, true), (0x1FFF, false)],
      (BitVec.ofNat 64 p.1).toNat < 2 ^ (cachedLoad p.1).cfg.addrW ∧ (cachedLoad p.1).phase = .busy
        ∧ decode (cachedLoad p.1).cfg (cachedLoad p.1).ctx.cmd = .ok .i420ToRgb8
        ∧ inRegions (writeRegions (operationOf (cachedLoad p.1).cfg .i420ToRgb8) (cachedLoad p.1).ctx)
            (BitVec.ofNat 64 p.1).toNat = p.2
        ∧ (cachedLoad p.1).cfg.coherent = false
        ∧ cachedLine (cachedLoad p.1).hostCache (BitVec.ofNat 64 p.1).toNat
            = some { addr := p.1, byte := 7, dirty := false } := by decide +kernel

/-- The host's cache holds an older unwritten store to the same byte, one outside the region and a clean copy. -/
theorem witness_CachedStoreNeedsWriteBack :
    let s := { State.reset with
      cfg := { Config.default with coherent := false }
      hostCache := [{ addr := 0x1000, byte := 1, dirty := true }, { addr := 0x3000, byte := 2, dirty := true },
        { addr := 0x1001, byte := 3, dirty := false }]
      inputs := [.store 0x1000 [9], .writeBack { base := 0x1000, size := 2 }] }
    s.cfg.coherent = false ∧ (0x1000 : Addr).toNat < 2 ^ s.cfg.addrW
      ∧ inRegion { base := 0x1000, size := 2 } (0x1000 : Addr).toNat = true
      ∧ (∀ l ∈ s.hostCache, l.dirty = true → inRegion { base := 0x1000, size := 2 } l.addr = true
          → l.addr = (0x1000 : Addr).toNat)
      ∧ s.inputs = .store 0x1000 [9] :: .writeBack { base := 0x1000, size := 2 } :: [] := by decide +kernel

/-- A running conversion has the invariant and steps to a next state. -/
theorem witness_StepKeepsInv :
    Machine.Inv (busy22 0 srcI420) ∧ ∃ t, step (busy22 0 srcI420) = .next t ∧ t.code = .success :=
  ⟨by unfold Machine.Inv Memory.within State.busyClear State.countClear; decide +kernel, next_of_nextCode (by decide +kernel)⟩

theorem witness_ParametersNeverChange : step State.reset = .next State.reset := rfl

theorem witness_BusyCompletes :
    (busy22 0 srcI420).phase = .busy ∧ (busy22 0 srcI420).inputs = [] ∧ (busy22 0 srcI420).cfg.sideEffects = [] := by
  decide +kernel

theorem witness_WaitEnds :
    let s : State := { busy22 0 srcI420 with inputs := wait Config.default ++ ack Config.default }
    s.phase = .busy ∧ s.done = false ∧ s.cfg.base.toNat % 256 = 0 ∧ s.cfg.sideEffects = []
      ∧ s.inputs = wait s.cfg ++ ack s.cfg := by decide +kernel

theorem witness_StopsAreNamed :
    exec .i420ToRgb8 { busy22 0 srcI420 with cfg := { Config.default with sideEffects := [{ base := 0x1005, size := 1 }] } }
        = .refused .sideEffectBuffer
    ∧ step { State.reset with inputs := [.busRead 2 4] } = .refused .misfitRegisterAccess
    ∧ State.reset.inputs = [] ∧ State.reset.cfg.sideEffects = [] :=
  ⟨refused_of_refusalOf (by decide +kernel), refused_of_refusalOf (by decide +kernel), rfl, rfl⟩

theorem witness_FloatQuantiserRange : (-1 / 10 : ℚ) ≤ 0 := by norm_num

/-- 255 is in range, and 0x437F0000 and its neighbour stand for values. -/
theorem witness_RoundsToNearestEven :
    (0 : ℚ) ≤ 255 ∧ (255 : ℚ) ≤ 255 ∧ f32 0x437F0000 = some 255 ∧ f32 0x437EFFFF = some (16711679 / 65536) := by
  decide +kernel

/-- The exact tie 1 + 2^-24 between 1 and its upper neighbour, which are equally near and different. -/
theorem witness_RoundsToNearestEven_tie :
    f32 (rne32 (1 + 1 / 2 ^ 24)) = some 1 ∧ f32 0x3F800001 = some (1 + 1 / 2 ^ 23)
      ∧ |(1 + 1 / 2 ^ 23 : ℚ) - (1 + 1 / 2 ^ 24)| = |1 - (1 + 1 / 2 ^ 24)| ∧ (1 + 1 / 2 ^ 23 : ℚ) ≠ 1 := by
  decide +kernel

/-- The picture of the examples of 41_yuv_to_rgb in I420 and in YUYV. -/
theorem witness_LayoutEquivalence :
    let s := busy22 0 srcI420
    let z := busy22 0 srcYuyv
    (Instr.i420ToRgb8, YuvLayout.sub420 .i420, RgbType.rgb8) ∈ yuvToRgb8Rows ++ yuvToRgbFloatRows
      ∧ (Instr.yuyvToRgb8, YuvLayout.packed .yuyv, RgbType.rgb8) ∈ yuvToRgb8Rows ++ yuvToRgbFloatRows
      ∧ Ready .i420ToRgb8 (.yuvToRgb (.sub420 .i420) .rgb8) s ∧ Ready .yuyvToRgb8 (.yuvToRgb (.packed .yuyv) .rgb8) z
      ∧ z.cfg = s.cfg ∧ z.ctx = s.ctx
      ∧ ∀ px < s.ctx.w.toNat, ∀ py < s.ctx.h.toNat,
        fetch (.sub420 .i420) s.ctx s.mem s.ctx.src.toNat px py = fetch (.packed .yuyv) s.ctx z.mem s.ctx.src.toNat px py := by
  unfold Ready Executes Undisturbed; decide +kernel

theorem witness_FloatChannelsAligned :
    invalidArgument Config.default (.rgbToYuv .rgbaf .nv12) (ctx22 0x3A) = false
      ∧ bytesPerChannel (rgbBuffer (.rgbToYuv .rgbaf .nv12) (ctx22 0x3A)).1 = 4 := by decide +kernel

theorem witness_PlaceIsBijective : 0 < (ctx22 0).NC ∧ 0 < (ctx22 0).CW ∧ 0 < (ctx22 0).CH ∧ 3 < (embed44 0).ctx.NC := by
  decide +kernel

/-- Group 1 of eight samples over 0x80: a 1-bit with three samples turned, a 0-bit with four. -/
theorem witness_VoteSurvivesNoise :
    Config.default.wellFormed = true
      ∧ (∀ bit : Bool, ∀ j < Config.default.red,
          (fun _ : Nat => embedSample Config.default bit 0x80) (1 * Config.default.red + j)
            = embedSample Config.default bit ((fun _ : Nat => (0x80 : Byte)) (1 * Config.default.red + j)))
      ∧ ∀ bit : Bool, (List.range Config.default.red).countP (fun j =>
          decide (Config.default.thresh ≤ ((fun k : Nat => embedSample Config.default
              (if k < 8 + (if bit then 3 else 4) then !bit else bit) 0x80) (1 * Config.default.red + j)).toNat)
            != decide (Config.default.thresh ≤ (embedSample Config.default bit 0x80).toNat))
          = (if bit then (Config.default.red + 1) / 2 - 1 else Config.default.red / 2) := by decide +kernel

/-- The 8 by 4 grey RGB8 frame with the auxiliary byte 0xC5 whose embedded U samples `extract84` holds, row by row. -/
def embed84 (cmd : Word) : State :=
  { busyWith { cmd := cmd, w := 8, h := 4, auxlen := 1, src := 0x1000, dst := 0x2000, aux := 0x500 }
      (Memory.write (bytesAt 0x1000 (List.replicate 96 0x80)) 0x500 0xC5) with
    cfg := { cfgRed1 with capPolicy := .fail } }

/-- What an embed leaves. -/
def embedded (flip : Bool) (s : State) : State :=
  succeed (Config.freeByte s.draws) (operationOf s.cfg (.rgb8ToI420Embed flip)) s

theorem witness_DataChannelRoundTrip :
    let s := embed84 0x60
    let z := extract84
    s.cfg.wellFormed = true ∧ z.cfg = s.cfg ∧ Ready (.rgb8ToI420Embed false) (.embed s.cfg.embedType false) s
      ∧ Ready .nv12ToRgba8Extract (.extract z.cfg.extractType) z ∧ z.ctx.w = s.ctx.w ∧ z.ctx.h = s.ctx.h
      ∧ z.ctx.auxlen = s.ctx.auxlen ∧ s.ctx.auxlen.toNat ≤ s.ctx.NC / s.cfg.red / 8
      ∧ (∀ bX < s.ctx.CW, ∀ bY < s.ctx.CH, z.mem.read (addrU .nv12 z.ctx z.ctx.src.toNat bX bY)
          = (embedded false s).mem.read (addrU .i420 s.ctx s.ctx.dst.toNat bX bY)) := by
  unfold Ready Executes Undisturbed; decide +kernel

theorem witness_FlipSymmetry :
    let s := embed84 0xE0
    let z := extract84
    s.cfg.wellFormed = true ∧ z.cfg = s.cfg ∧ Ready (.rgb8ToI420Embed true) (.embed s.cfg.embedType true) s
      ∧ Ready .nv12ToRgba8Extract (.extract z.cfg.extractType) z ∧ z.ctx.w = s.ctx.w ∧ z.ctx.h = s.ctx.h
      ∧ z.ctx.auxlen = s.ctx.auxlen ∧ s.ctx.auxlen.toNat ≤ s.ctx.NC / s.cfg.red / 8
      ∧ (∀ bX < s.ctx.CW, ∀ bY < s.ctx.CH, z.mem.read (addrU .nv12 z.ctx z.ctx.src.toNat bX bY)
          = (embedded true s).mem.read (addrU .i420 s.ctx s.ctx.dst.toNat bX (s.ctx.CH - 1 - bY))) := by
  unfold Ready Executes Undisturbed; decide +kernel

/-- The `t` and `u` of the two statements above: the embeds of `embed84` and the extract of `extract84` complete. -/
theorem witness_DataChannelRoundTrip_next :
    exec (.rgb8ToI420Embed false) (embed84 0x60) = .next (embedded false (embed84 0x60))
      ∧ exec (.rgb8ToI420Embed true) (embed84 0xE0) = .next (embedded true (embed84 0xE0))
      ∧ ∃ u, exec .nv12ToRgba8Extract extract84 = .next u ∧ u.code = .success := by
  refine ⟨?_, ?_, next_of_nextCode (by decide +kernel)⟩ <;> rw [exec_eq_runOperation, embedded] <;>
    exact runOperation_succeeds (by unfold Executes; decide +kernel) (by decide +kernel)

/-- The frame of `embed84` with no auxiliary byte. -/
def embed84Empty : State := { embed84 0x60 with ctx := { (embed84 0x60).ctx with auxlen := 0 } }

theorem witness_EmptyEmbedIsPlainConversion :
    embed84Empty.cfg.embedType = .rgb8 ∧ embed84Empty.ctx.auxlen = 0
      ∧ (∀ flip, Ready (.rgb8ToI420Embed flip) (.embed .rgb8 flip) embed84Empty)
      ∧ Ready .rgb8ToI420 (.rgbToYuv .rgb8 .i420) embed84Empty := by
  unfold Ready Executes Undisturbed; decide +kernel

theorem witness_EmptyEmbedIsPlainConversion_next :
    (∃ t, exec (.rgb8ToI420Embed true) embed84Empty = .next t ∧ t.code = .success)
      ∧ ∃ u, exec .rgb8ToI420 embed84Empty = .next u ∧ u.code = .success :=
  ⟨next_of_nextCode (by decide +kernel), next_of_nextCode (by decide +kernel)⟩

end Sys2Proof.Tests
end

