-- ==== Sys2Proof/Proofs/Scope.lean ====
section
/-! PROOFS. The implementation parameters are fixed (00_scope R5): no act of the core, the host or the platform changes
them, and so no step does. -/

namespace Sys2Proof.Machine

/-! ### The updates of the state that have no record lemma of their own -/

section
variable (s : State)

@[simp] theorem writeAt_cfg (a : BusAddr) (v : Word) : (writeAt a v s).cfg = s.cfg := by
  unfold writeAt
  split
  · exact (writeReg_frame s _ v).1
  · rfl

@[simp] theorem raiseDeviceFault_cfg : (raiseDeviceFault s).cfg = s.cfg := by
  unfold raiseDeviceFault
  split <;> rfl

@[simp] theorem hostLoad_cfg (a : Nat) : (hostLoad a s).cfg = s.cfg := rfl

@[simp] theorem agentLoad_cfg (a : Nat) : (agentLoad a s).cfg = s.cfg := rfl

@[simp] theorem hostStore_cfg (a : Nat) (bytes : List Byte) : (hostStore a bytes s).cfg = s.cfg := by
  obtain ⟨m, l, cache, h⟩ := hostStore_frame a bytes s
  rw [h]

@[simp] theorem agentStore_cfg (a : Nat) (bytes : List Byte) : (agentStore a bytes s).cfg = s.cfg := by
  obtain ⟨m, l, h⟩ := agentStore_frame a bytes s
  rw [h]

@[simp] theorem writeBackRegion_cfg (r : Region) : (writeBackRegion r s).cfg = s.cfg := by
  obtain ⟨m, l, h⟩ := performLines_frame (s.hostCache.filter (toWriteBack r)) s
  simp [writeBackRegion, h]

end

/-! ### What can answer with a next state keeps the parameters -/

/-- The parameters are the same in every next state of an outcome. -/
def KeepsCfg (s : State) (o : Host.Outcome State Fault Refusal) : Prop := ∀ t, o = .next t → t.cfg = s.cfg

@[simp] theorem keepsCfg_next {s t : State} : KeepsCfg s (.next t) ↔ t.cfg = s.cfg := by
  simp [KeepsCfg]

@[simp] theorem keepsCfg_fault (s : State) (f : Fault) : KeepsCfg s (.fault f) := by simp [KeepsCfg]

@[simp] theorem keepsCfg_refused (s : State) (r : Refusal) : KeepsCfg s (.refused r) := by simp [KeepsCfg]

/-- An act inside the memory space keeps the parameters when its next state does; outside it, it faults. -/
theorem keepsCfg_guarded {s u : State} (inside : Bool) (hu : u.cfg = s.cfg) :
    KeepsCfg s (if inside then .next u else .fault .noSuchAddress) := by
  cases inside <;> simp [hu]

theorem exec_keepsCfg (i : Instr) (s : State) : KeepsCfg s (exec i s) := by
  intro t h
  rw [exec_eq_runOperation] at h
  rcases runOperation_cases h with ⟨-, rfl⟩ | ⟨-, -, rfl⟩ | ⟨-, -, -, rfl⟩ | ⟨-, -, rfl⟩ | ⟨-, -, rfl⟩
  · exact turnAway_cfg ..
  · exact turnAway_cfg ..
  · exact turnAway_cfg ..
  · exact failDevice_cfg ..
  · exact succeed_cfg ..

theorem coreTurn_keepsCfg (s : State) : KeepsCfg s (coreTurn s) := by
  rcases coreTurn_cases s with ⟨-, h⟩ | ⟨i, -, -, h⟩ | ⟨r, -, -, h⟩
  · simp [h]
  · exact h ▸ exec_keepsCfg i s
  · simp [h]

theorem busRead_keepsCfg (a : BusAddr) (bytes : Nat) (s : State) : KeepsCfg s (busRead a bytes s) := by
  rcases busRead_cases a bytes s with ⟨-, h⟩ | ⟨-, -, h⟩ | ⟨-, h⟩ <;> simp [h]

theorem busWrite_keepsCfg (a : BusAddr) (bytes : Nat) (v : Word) (s : State) :
    KeepsCfg s (busWrite a bytes v s) := by
  rcases busWrite_cases a bytes v s with ⟨-, h⟩ | ⟨-, -, h⟩ | ⟨-, h⟩ <;> simp [h]

theorem poll_keepsCfg (a : BusAddr) (mask value : Word) (s : State) : KeepsCfg s (poll a mask value s) := by
  unfold poll
  split
  · split
    · simp
    · exact coreTurn_keepsCfg { s with rdata := readAt s a, inputs := .poll a mask value :: s.inputs }
  · simp

/-- Every input, whoever it comes from, keeps the parameters. -/
theorem deliver_keepsCfg (e : Input) (s : State) : KeepsCfg s (deliver e s) := by
  cases e with
  | core => exact coreTurn_keepsCfg s
  | reset => exact keepsCfg_next.2 (resetCore_cfg s)
  | deviceFault => exact keepsCfg_next.2 (raiseDeviceFault_cfg s)
  | busRead a n => exact busRead_keepsCfg a n s
  | busWrite a n v => exact busWrite_keepsCfg a n v s
  | poll a mask v => exact poll_keepsCfg a mask v s
  | store a bytes => exact keepsCfg_guarded _ (hostStore_cfg s a.toNat bytes)
  | load a => exact keepsCfg_guarded _ (hostLoad_cfg s a.toNat)
  | agentStore a bytes => exact keepsCfg_guarded _ (agentStore_cfg s a.toNat bytes)
  | agentLoad a => exact keepsCfg_guarded _ (agentLoad_cfg s a.toNat)
  | writeBack r => exact keepsCfg_next.2 (writeBackRegion_cfg s r)
  | discard r => exact keepsCfg_next.2 (discardRegion_cfg s r)

theorem step_keepsCfg (s : State) : KeepsCfg s (step s) := by
  cases h : s.inputs with
  | nil => exact step_of_no_inputs h ▸ coreTurn_keepsCfg s
  | cons e rest => exact step_of_input h ▸ deliver_keepsCfg e { s with inputs := rest }

/-- Settles O39: every step is the core's turn or one input, and each of them keeps the parameters. -/
theorem parametersNeverChange : Obligations.ParametersNeverChange := step_keepsCfg

end Sys2Proof.Machine
end

/-! PROOFS. The registers and the latched context (10_state): what a register read returns, what a register write and a
bus access do, what an operation can answer with and leaves in AUX_COUNT, and that it takes its operands from the context
alone. -/

namespace Sys2Proof.Machine

/-! ### The words a register read returns, bit by bit -/

theorem getLsbD_bitWord (b : Bool) (j : Nat) : (bitWord b).getLsbD j = (decide (j = 0) && b) := by
  cases b <;> simp [bitWord]

theorem getLsbD_ctrlWord (s : State) (j : Nat) : (ctrlWord s).getLsbD j = (decide (j = 1) && s.irqEn) := by
  rw [ctrlWord, BitVec.getLsbD_shiftLeft, getLsbD_bitWord]
  grind

theorem getLsbD_statusWord (s : State) (j : Nat) (hj : j < 32) :
    (statusWord s).getLsbD j = ((decide (j = 0) && decide (s.phase = .busy)) || (decide (j = 1) && s.done)
      || (decide (4 ≤ j) && s.code.number.getLsbD (j - 4))) := by
  simp only [statusWord, BitVec.getLsbD_or, BitVec.getLsbD_shiftLeft, BitVec.getLsbD_setWidth, getLsbD_bitWord]
  grind

/-- The CODE field of STATUS, bits 6:4 (10_state R27). -/
theorem extractLsb'_code_statusWord (s : State) : (statusWord s).extractLsb' 4 3 = s.code.number := by
  refine BitVec.eq_of_getLsbD_eq fun i hi => ?_
  rw [BitVec.getLsbD_extractLsb', getLsbD_statusWord s (4 + i) (by omega)]
  have h1 : 4 + i ≠ 1 := by omega
  simp [hi, h1]

/-- A code number has three bits, so nothing of it reaches above bit 6. -/
theorem extractLsb'_eq_zero_of_statusWord (s : State) (start len : Nat) (h2 : 2 ≤ start) (htop : start + len ≤ 32)
    (hgap : start + len ≤ 4 ∨ 7 ≤ start) : (statusWord s).extractLsb' start len = 0 := by
  refine BitVec.eq_of_getLsbD_eq fun i hi => ?_
  rw [BitVec.getLsbD_extractLsb', getLsbD_statusWord s (start + i) (by omega)]
  have hcode : (decide (4 ≤ start + i) && s.code.number.getLsbD (start + i - 4)) = false := by
    rcases hgap with h | h
    · rw [decide_eq_false (by omega), Bool.false_and]
    · rw [BitVec.getLsbD_of_ge _ _ (by omega), Bool.and_false]
  rw [hcode, decide_eq_false (show start + i ≠ 0 by omega), decide_eq_false (show start + i ≠ 1 by omega)]
  simp

/-- Settles O30: the bits of the STATUS word, field by field. -/
theorem statusReadLayout : Obligations.StatusReadLayout := by
  intro s
  refine ⟨?_, ?_, ?_, ?_, ?_⟩
  · exact (getLsbD_statusWord s 0 (by omega)).trans (by simp)
  · exact (getLsbD_statusWord s 1 (by omega)).trans (by simp)
  · rw [readReg, extractLsb'_code_statusWord]
    cases s.code <;> rfl
  · exact extractLsb'_eq_zero_of_statusWord s 2 2 (by omega) (by omega) (by omega)
  · exact extractLsb'_eq_zero_of_statusWord s 7 25 (by omega) (by omega) (by omega)

/-! ### Register writes -/

theorem writeReg_ctrl_of_start {s : State} {v : Word} (h : v.getLsbD 0 = true) :
    writeReg .ctrl v s = start { s with irqEn := v.getLsbD 1 } :=
  if_pos h

theorem writeReg_ctrl_of_no_start {s : State} {v : Word} (h : v.getLsbD 0 = false) :
    writeReg .ctrl v s = { s with irqEn := v.getLsbD 1 } :=
  if_neg (Bool.eq_false_iff.1 h)

theorem writeReg_status_of_set {s : State} {v : Word} (h : v.getLsbD 1 = true) :
    writeReg .status v s = { s with done := false } :=
  if_pos h

theorem writeReg_status_of_clear {s : State} {v : Word} (h : v.getLsbD 1 = false) : writeReg .status v s = s :=
  if_neg (Bool.eq_false_iff.1 h)

/-- AUX_COUNT is read-only (10_state R33). -/
@[simp] theorem writeReg_auxCount (v : Word) (s : State) : writeReg .auxCount v s = s := rfl

/-- A STATUS write looks at bit 1 of its value alone (10_state R28). -/
theorem writeReg_status_congr {v v' : Word} (h1 : v.getLsbD 1 = v'.getLsbD 1) (s : State) :
    writeReg .status v s = writeReg .status v' s := by
  simp only [writeReg, writeStatus, h1]

/-- A CTRL write looks at bits 0 and 1 of its value alone (10_state R26). -/
theorem writeReg_ctrl_congr {v v' : Word} (h0 : v.getLsbD 0 = v'.getLsbD 0) (h1 : v.getLsbD 1 = v'.getLsbD 1)
    (s : State) : writeReg .ctrl v s = writeReg .ctrl v' s := by
  simp only [writeReg, writeCtrl, h0, h1]

/-- Settles O28: by the value's START bit and, where it is set, the core's phase. -/
theorem ctrlWriteRule : Obligations.CtrlWriteRule := by
  intro s v
  refine ⟨fun h hp => ?_, fun h hp => ?_, writeReg_ctrl_of_no_start, getLsbD_ctrlWord s⟩
  · exact (writeReg_ctrl_of_start h).trans (start_of_idle { s with irqEn := v.getLsbD 1 } hp)
  · exact (writeReg_ctrl_of_start h).trans (start_of_busy { s with irqEn := v.getLsbD 1 } hp)

/-- Settles O29: by bit 1 of the value. -/
theorem statusWriteRule : Obligations.StatusWriteRule := by
  intro s v
  refine ⟨writeReg_status_of_set, writeReg_status_of_clear, fun _ hd => ?_⟩
  cases h : v.getLsbD 1 with
  | true => rw [writeReg_status_of_set h]
  | false => rw [writeReg_status_of_clear h, hd]

/-- The ten registers whose contents START latches (10_state R34, R41). -/
def parameterRegs : List Reg := [.cmd, .width, .height, .auxLen, .srcLo, .srcHi, .dstLo, .dstHi, .auxLo, .auxHi]

/-- Each of the ten registers is a field of its own, which no other register's read looks at. -/
theorem readReg_writeReg_other {r q : Reg} (hr : r ∈ parameterRegs) (hq : q ≠ r) (v : Word) (s : State) :
    readReg (writeReg r v s) q = readReg s q := by
  fin_cases hr <;> cases q <;> simp [readReg, writeReg] at hq ⊢ <;> rfl

/-- A write of one of the ten registers is read back whole and writes no state but the register. -/
theorem writeReg_parameter {r : Reg} (hr : r ∈ parameterRegs) (v : Word) (s : State) :
    readReg (writeReg r v s) r = v ∧ (writeReg r v s).ctx = s.ctx ∧ (writeReg r v s).phase = s.phase := by
  fin_cases hr <;> exact ⟨rfl, rfl, rfl⟩

/-- Settles O31. -/
theorem parameterRegistersReadBack : Obligations.ParameterRegistersReadBack := by
  intro s r v hr
  obtain ⟨hback, hctx, hphase⟩ := writeReg_parameter hr v s
  obtain ⟨-, hmem, -, -⟩ := writeReg_frame s r v
  exact ⟨hback, fun _ hq => readReg_writeReg_other hr hq v s, hctx, hmem, hphase⟩

/-! ### The state after reset -/

theorem readReg_resetWith (c : Config) (r : Reg) : readReg (State.resetWith c) r = 0 := by
  cases r with
  | status => simp [readReg, statusWord, State.resetWith, bitWord, StatusCode.number]
  | _ => rfl

/-- An idle core with no input left waits (70_reset_and_hazards R330). -/
theorem step_of_idle {s : State} (hi : s.inputs = []) (hp : s.phase = .idle) : step s = .next s := by
  rw [step_of_no_inputs hi]
  rcases coreTurn_cases s with ⟨-, h⟩ | ⟨i, hb, -⟩ | ⟨r, hb, -⟩
  · exact h
  · simp [hp] at hb
  · simp [hp] at hb

/-- Settles O33. -/
theorem resetStateValues : Obligations.ResetStateValues := fun c =>
  ⟨readReg_resetWith c, rfl, rfl, step_of_idle rfl rfl⟩

/-- Settles O38: after reset memory and the host's cache list nothing, and the core is IDLE with code SUCCESS. -/
theorem resetHasInv : Obligations.ResetHasInv := by
  intro c
  refine ⟨reset_mem_wf c, ?_, ?_, ?_, fun _ => rfl⟩
  · intro p hp
    exact absurd hp List.not_mem_nil
  · intro l hl
    exact absurd hl List.not_mem_nil
  · intro hp
    exact absurd hp (by simp [State.resetWith])

/-! ### Bus accesses -/

/-- The registers lie at multiples of 4 from 0 to 0x30 (10_state R23). -/
theorem regOffset_bounds (r : Reg) : regOffset r ≤ 0x30 ∧ regOffset r % 4 = 0 := by
  cases r <;> decide

theorem regAt_regOffset (r : Reg) : regAt (regOffset r) = some r := by
  cases r <;> rfl

/-- Offsets from 0x34 up are reserved (10_state R23). -/
theorem regAt_reserved {off : Nat} (h : 0x34 ≤ off) : regAt off = none := by
  refine List.find?_eq_none.2 fun r _ => ?_
  have hr := (regOffset_bounds r).1
  simp only [decide_eq_true_eq]
  omega

/-- A register's bus address does not come round the top of the bus when BASE is aligned. -/
theorem regAddr_toNat {c : Config} (hb : c.base.toNat % 256 = 0) (r : Reg) :
    (regAddr c r).toNat = c.base.toNat + regOffset r := by
  have hr := (regOffset_bounds r).1
  have hlt := c.base.isLt
  rw [regAddr, BitVec.toNat_add, BitVec.toNat_ofNat]
  omega

/-- An access that touches the block and does not fit it is one R24 gives no meaning. -/
theorem busRead_of_misfit {a : BusAddr} {n : Nat} {s : State} (hs : selected s.cfg a n = true)
    (hf : fits s.cfg a n = false) : busRead a n s = .refused .misfitRegisterAccess := by
  simp [busRead, hs, hf]

theorem busWrite_of_misfit {a : BusAddr} {n : Nat} {s : State} (v : Word) (hs : selected s.cfg a n = true)
    (hf : fits s.cfg a n = false) : busWrite a n v s = .refused .misfitRegisterAccess := by
  simp [busWrite, hs, hf]

theorem selected_of_fits {c : Config} {a : BusAddr} {n : Nat} (h : fits c a n = true) : selected c a n = true := by
  simp only [fits, Bool.and_eq_true] at h
  exact h.1.1.1

theorem busRead_of_fits {a : BusAddr} {n : Nat} {s : State} (h : fits s.cfg a n = true) :
    busRead a n s = .next { s with rdata := readAt s a } := by
  simp [busRead, selected_of_fits h, h]

theorem busWrite_of_fits {a : BusAddr} {n : Nat} {s : State} (v : Word) (h : fits s.cfg a n = true) :
    busWrite a n v s = .next (writeAt a v s) := by
  simp [busWrite, selected_of_fits h, h]

theorem selected_iff (c : Config) (a : BusAddr) (n : Nat) :
    selected c a n = true ↔ c.base.toNat < a.toNat + max n 1 ∧ a.toNat < c.base.toNat + 256 := by
  simp [selected]

theorem readAt_eq_readReg {s : State} {a : BusAddr} {r : Reg} (h : a.toNat = s.cfg.base.toNat + regOffset r) :
    readAt s a = readReg s r := by
  simp [readAt, h, regAt_regOffset]

theorem writeAt_eq_writeReg {s : State} {a : BusAddr} {r : Reg} (v : Word)
    (h : a.toNat = s.cfg.base.toNat + regOffset r) : writeAt a v s = writeReg r v s := by
  simp [writeAt, h, regAt_regOffset]

theorem readAt_reserved {s : State} {a : BusAddr} (h : s.cfg.base.toNat + 0x34 ≤ a.toNat) : readAt s a = 0 := by
  simp [readAt, regAt_reserved (Nat.le_sub_of_add_le' h)]

theorem writeAt_reserved {s : State} {a : BusAddr} (v : Word) (h : s.cfg.base.toNat + 0x34 ≤ a.toNat) :
    writeAt a v s = s := by
  simp [writeAt, regAt_reserved (Nat.le_sub_of_add_le' h)]

theorem fits_of_register {c : Config} {a : BusAddr} {r : Reg} (hb : c.base.toNat % 256 = 0)
    (h : a.toNat = c.base.toNat + regOffset r) : fits c a 4 = true := by
  obtain ⟨hle, h4⟩ := regOffset_bounds r
  exact (fits_iff c a 4).2 (by omega)

theorem busWrite_register {s : State} {a : BusAddr} {r : Reg} (v : Word) (hb : s.cfg.base.toNat % 256 = 0)
    (h : a.toNat = s.cfg.base.toNat + regOffset r) : busWrite a 4 v s = .next (writeReg r v s) := by
  rw [busWrite_of_fits v (fits_of_register hb h), writeAt_eq_writeReg v h]

theorem busRead_register {s : State} {a : BusAddr} {r : Reg} (hb : s.cfg.base.toNat % 256 = 0)
    (h : a.toNat = s.cfg.base.toNat + regOffset r) : busRead a 4 s = .next { s with rdata := readReg s r } := by
  rw [busRead_of_fits (fits_of_register hb h), readAt_eq_readReg h]

/-- A 32-bit bus write at a register's offset is the write of that register. -/
theorem step_busWrite_register {s : State} {a : BusAddr} {r : Reg} {v : Word} {rest : List Input}
    (hb : s.cfg.base.toNat % 256 = 0) (h : a.toNat = s.cfg.base.toNat + regOffset r)
    (hi : s.inputs = .busWrite a 4 v :: rest) : step s = .next (writeReg r v { s with inputs := rest }) := by
  rw [step_of_input hi]
  exact busWrite_register v hb h

/-- A 32-bit bus read at a register's offset is the read of that register. -/
theorem step_busRead_register {s : State} {a : BusAddr} {r : Reg} {rest : List Input}
    (hb : s.cfg.base.toNat % 256 = 0) (h : a.toNat = s.cfg.base.toNat + regOffset r)
    (hi : s.inputs = .busRead a 4 :: rest) : step s = .next { s with inputs := rest, rdata := readReg s r } := by
  rw [step_of_input hi]
  exact busRead_register hb h

/-- Settles O26: BASE plus an offset does not come round, and it is the offset of one register. -/
theorem busReachesRegisters : Obligations.BusReachesRegisters := fun _ r _ _ hb =>
  ⟨step_busWrite_register hb (regAddr_toNat hb r), step_busRead_register hb (regAddr_toNat hb r)⟩

/-- A step whose next input is an access that touches the block and does not fit it is refused. -/
theorem step_misfit {s : State} {a : BusAddr} {n : Nat} {v : Word} {rest : List Input}
    (hs : selected s.cfg a n = true) (hf : ¬ fits s.cfg a n = true) :
    (s.inputs = .busRead a n :: rest → step s = .refused .misfitRegisterAccess) ∧
      (s.inputs = .busWrite a n v :: rest → step s = .refused .misfitRegisterAccess) := by
  rw [Bool.not_eq_true] at hf
  refine ⟨fun hi => ?_, fun hi => ?_⟩
  · rw [step_of_input hi]
    exact busRead_of_misfit hs hf
  · rw [step_of_input hi]
    exact busWrite_of_misfit v hs hf

theorem busRead_reserved {s : State} {a : BusAddr} (hf : fits s.cfg a 4 = true)
    (h : s.cfg.base.toNat + 0x34 ≤ a.toNat) : busRead a 4 s = .next { s with rdata := 0 } := by
  rw [busRead_of_fits hf, readAt_reserved h]

theorem busWrite_reserved {s : State} {a : BusAddr} (v : Word) (hf : fits s.cfg a 4 = true)
    (h : s.cfg.base.toNat + 0x34 ≤ a.toNat) : busWrite a 4 v s = .next s := by
  rw [busWrite_of_fits v hf, writeAt_reserved v h]

/-- At a reserved offset a read returns 0 and a write is ignored. -/
theorem step_reserved {s : State} {a : BusAddr} {v : Word} {rest : List Input} (hf : fits s.cfg a 4 = true)
    (h : s.cfg.base.toNat + 0x34 ≤ a.toNat) :
    (s.inputs = .busRead a 4 :: rest → step s = .next { s with inputs := rest, rdata := 0 }) ∧
      (s.inputs = .busWrite a 4 v :: rest → step s = .next { s with inputs := rest }) := by
  refine ⟨fun hi => ?_, fun hi => ?_⟩
  · rw [step_of_input hi]
    exact busRead_reserved hf h
  · rw [step_of_input hi]
    exact busWrite_reserved v hf h

/-- Two values that a register's write does not tell apart make the same step. -/
theorem step_busWrite_congr {s : State} {a : BusAddr} {r : Reg} {v v' : Word} {rest : List Input}
    (hb : s.cfg.base.toNat % 256 = 0) (h : a.toNat = s.cfg.base.toNat + regOffset r)
    (hv : ∀ t, writeReg r v t = writeReg r v' t) (hi : s.inputs = .busWrite a 4 v :: rest) :
    step s = step { s with inputs := .busWrite a 4 v' :: rest } := by
  rw [step_busWrite_register hb h hi, hv]
  exact (step_busWrite_register (s := { s with inputs := .busWrite a 4 v' :: rest }) hb h rfl).symm

/-- Settles O27: clause by clause, from where the access lies in the block. -/
theorem registerAccessRule : Obligations.RegisterAccessRule := by
  intro s a n v rest hb
  refine ⟨fun hlo hin => step_misfit ?_ ?_, fun hlo hhi => ⟨fun hbad => step_misfit ?_ ?_, fun h4 hres => ?_,
    fun ha => ?_, fun ha => ?_, fun ha => ?_⟩⟩
  · rw [selected_iff]; omega
  · rw [fits_iff]; omega
  · rw [selected_iff]; omega
  · rw [fits_iff]; omega
  · exact step_reserved ((fits_iff ..).2 ⟨rfl, h4, hlo, hhi⟩) hres
  · exact step_busWrite_register (r := .auxCount) hb ha
  · exact step_busWrite_congr (r := .status) hb ha (writeReg_status_congr (by simp))
  · exact step_busWrite_congr (r := .ctrl) hb ha (writeReg_ctrl_congr (by simp) (by simp))

/-! ### What an operation answers with -/

/-- The course of an operation ends in a next state, or in the refusal of a buffer on addresses with read side effects
(20_memory R66). -/
theorem runOperation_next_or_refused (i : Instr) (op : Operation) (s : State) :
    (∃ t, runOperation i op s = .next t)
    ∨ (onSideEffects s.cfg op s.ctx = true ∧ runOperation i op s = .refused .sideEffectBuffer) := by
  unfold runOperation
  split_ifs <;> simp_all

theorem exec_next_or_refused (i : Instr) (s : State) :
    (∃ t, exec i s = .next t)
    ∨ (onSideEffects s.cfg (operationOf s.cfg i) s.ctx = true ∧ exec i s = .refused .sideEffectBuffer) := by
  rw [exec_eq_runOperation]
  exact runOperation_next_or_refused ..

theorem coreTurn_next_or_refused (s : State) :
    (∃ t, coreTurn s = .next t) ∨ (s.cfg.sideEffects ≠ [] ∧ coreTurn s = .refused .sideEffectBuffer) := by
  rcases coreTurn_cases s with ⟨-, h⟩ | ⟨i, -, -, h⟩ | ⟨e, -, -, h⟩
  · exact .inl ⟨s, h⟩
  · rw [h]
    refine (exec_next_or_refused i s).imp_right fun ⟨hon, he⟩ => ⟨fun hnil => ?_, he⟩
    simp [onSideEffects, hnil] at hon
  · exact .inl ⟨_, h⟩

/-- An outcome is no refusal but those of R66 and R24. -/
def StopNamed (o : Host.Outcome State Fault Refusal) : Prop :=
  ∀ r, o = .refused r → r = .sideEffectBuffer ∨ r = .misfitRegisterAccess

@[simp] theorem stopNamed_next (t : State) : StopNamed (.next t) := by simp [StopNamed]

@[simp] theorem stopNamed_fault (f : Fault) : StopNamed (.fault f) := by simp [StopNamed]

@[simp] theorem stopNamed_sideEffectBuffer : StopNamed (.refused .sideEffectBuffer) := by simp [StopNamed]

@[simp] theorem stopNamed_misfitRegisterAccess : StopNamed (.refused .misfitRegisterAccess) := by simp [StopNamed]

theorem stopNamed_guarded (inside : Bool) (t : State) :
    StopNamed (if inside then .next t else .fault .noSuchAddress) := by
  cases inside <;> simp

theorem coreTurn_stopNamed (s : State) : StopNamed (coreTurn s) := by
  rcases coreTurn_next_or_refused s with ⟨t, h⟩ | ⟨-, h⟩ <;> simp [h]

theorem busRead_stopNamed (a : BusAddr) (n : Nat) (s : State) : StopNamed (busRead a n s) := by
  rcases busRead_cases a n s with ⟨-, h⟩ | ⟨-, -, h⟩ | ⟨-, h⟩ <;> simp [h]

theorem busWrite_stopNamed (a : BusAddr) (n : Nat) (v : Word) (s : State) : StopNamed (busWrite a n v s) := by
  rcases busWrite_cases a n v s with ⟨-, h⟩ | ⟨-, -, h⟩ | ⟨-, h⟩ <;> simp [h]

theorem poll_stopNamed (a : BusAddr) (mask value : Word) (s : State) : StopNamed (poll a mask value s) := by
  unfold poll
  split
  · split
    · simp
    · exact coreTurn_stopNamed _
  · simp

theorem deliver_stopNamed (e : Input) (s : State) : StopNamed (deliver e s) := by
  cases e with
  | core => exact coreTurn_stopNamed s
  | reset => exact stopNamed_next _
  | deviceFault => exact stopNamed_next _
  | busRead a n => exact busRead_stopNamed a n s
  | busWrite a n v => exact busWrite_stopNamed a n v s
  | poll a mask v => exact poll_stopNamed a mask v s
  | store a bytes => exact stopNamed_guarded _ _
  | load a => exact stopNamed_guarded _ _
  | agentStore a bytes => exact stopNamed_guarded _ _
  | agentLoad a => exact stopNamed_guarded _ _
  | writeBack r => exact stopNamed_next _
  | discard r => exact stopNamed_next _

theorem step_stopNamed (s : State) : StopNamed (step s) := by
  cases h : s.inputs with
  | nil => exact step_of_no_inputs h ▸ coreTurn_stopNamed s
  | cons e rest => exact step_of_input h ▸ deliver_stopNamed e { s with inputs := rest }

/-- Settles O42: an instruction has a next state or R66's refusal, and with no such address the core's turn has a next
state. -/
theorem stopsAreNamed : Obligations.StopsAreNamed := by
  refine ⟨fun i s f hf => ?_, fun i s r hr => ?_, step_stopNamed, fun s hi hnone => ?_⟩
  · rcases exec_next_or_refused i s with ⟨t, h⟩ | ⟨-, h⟩ <;> simp [h] at hf
  · rcases exec_next_or_refused i s with ⟨t, h⟩ | ⟨-, h⟩
    · simp [h] at hr
    · simpa [h] using hr.symm
  · rw [step_of_no_inputs hi]
    exact (coreTurn_next_or_refused s).resolve_right fun h => h.1 hnone

/-! ### AUX_COUNT after a completion -/

/-- Under CAP_POLICY = FAIL an embed that runs embeds the whole auxiliary buffer (43_data_channel R280). -/
theorem ofNat_operationCount_embed_fail {c : Config} (h : c.capPolicy = .fail) (t : RgbType) (flip : Bool) (x : Ctx) :
    BitVec.ofNat 32 (operationCount c (.embed t flip) x) = x.auxlen := by
  simp [operationCount, embedBits, h, Ctx.auxBytes]

/-- Under CAP_POLICY = TRUNCATE an embed counts the whole bytes among the bits it embeds (43_data_channel R281). -/
theorem operationCount_embed_truncate {c : Config} (h : c.capPolicy = .truncate) (t : RgbType) (flip : Bool)
    (x : Ctx) : operationCount c (.embed t flip) x = min (8 * x.auxlen.toNat) (x.NC / c.red) / 8 := by
  simp [operationCount, embedBits, h, Ctx.auxBytes, capBits]

/-- Under CAP_POLICY = FAIL an extract that runs fills the whole auxiliary buffer (43_data_channel R280). -/
theorem ofNat_operationCount_extract_fail {c : Config} (h : c.capPolicy = .fail) (t : RgbType) (x : Ctx) :
    BitVec.ofNat 32 (operationCount c (.extract t) x) = x.auxlen := by
  simp [operationCount, extractBytes, h, Ctx.auxBytes]

/-- Under CAP_POLICY = TRUNCATE an extract stops at the capacity (43_data_channel R281). -/
theorem operationCount_extract_truncate {c : Config} (h : c.capPolicy = .truncate) (t : RgbType) (x : Ctx) :
    operationCount c (.extract t) x = min x.auxlen.toNat (x.NC / c.red / 8) := by
  simp [operationCount, extractBytes, h, Ctx.auxBytes, capBytes, capBits]

/-- A next state of an instruction has count 0 under a code other than SUCCESS, and the operation's count under SUCCESS
(10_state R33). -/
theorem exec_auxCount {i : Instr} {s t : State} (h : exec i s = .next t) :
    (t.code ≠ .success ∧ t.auxCount = 0)
    ∨ (t.code = .success ∧ t.auxCount = BitVec.ofNat 32 (operationCount s.cfg (operationOf s.cfg i) s.ctx)) := by
  rw [exec_eq_runOperation] at h
  rcases runOperation_cases h with ⟨-, rfl⟩ | ⟨-, -, rfl⟩ | ⟨-, -, -, rfl⟩ | ⟨-, -, rfl⟩ | ⟨-, -, rfl⟩ <;>
    simp

/-- Settles O25: a success has its operation's count, which only the two data-channel operations have above 0. -/
theorem auxCountRule : Obligations.AuxCountRule := by
  refine ⟨fun s v => writeReg_auxCount v s, fun s hp => by rw [start_of_idle s hp], fun i s t h => ?_⟩
  rcases exec_auxCount h with ⟨hk, hn⟩ | ⟨hk, hn⟩
  · exact ⟨fun _ => hn, fun hs => absurd hs hk⟩
  refine ⟨fun hs => absurd hk hs, fun _ => hn.trans ?_⟩
  cases i with
  | rgb8ToI420Embed flip =>
    cases hc : s.cfg.capPolicy with
    | fail => exact ofNat_operationCount_embed_fail hc ..
    | truncate => exact congrArg _ (operationCount_embed_truncate hc ..)
  | nv12ToRgba8Extract =>
    cases hc : s.cfg.capPolicy with
    | fail => exact ofNat_operationCount_extract_fail hc ..
    | truncate => exact congrArg _ (operationCount_extract_truncate hc ..)
  | _ => rfl

/-! ### An operation reads the context, not the registers -/

/-- Contents for the ten registers that START latches (10_state R41). -/
structure ParameterRegs where
  cmd : Word
  width : Word
  height : Word
  auxLen : Word
  srcLo : Word
  srcHi : Word
  dstLo : Word
  dstHi : Word
  auxLo : Word
  auxHi : Word

/-- A state with these contents written to the ten registers. -/
def ParameterRegs.put (p : ParameterRegs) (s : State) : State :=
  { s with cmd := p.cmd, width := p.width, height := p.height, auxLen := p.auxLen, srcLo := p.srcLo, srcHi := p.srcHi
           dstLo := p.dstLo, dstHi := p.dstHi, auxLo := p.auxLo, auxHi := p.auxHi }

/-- An outcome with a change made to its next state. -/
def mapNext (f : State → State) (o : Host.Outcome State Fault Refusal) : Host.Outcome State Fault Refusal :=
  match o with
  | .next t => .next (f t)
  | .fault e => .fault e
  | .refused r => .refused r

@[simp] theorem mapNext_next (f : State → State) (t : State) : mapNext f (.next t) = .next (f t) := rfl
@[simp] theorem mapNext_refused (f : State → State) (r : Refusal) : mapNext f (.refused r) = .refused r := rfl

section
variable (p : ParameterRegs) (s : State)

@[simp] theorem ParameterRegs.put_cfg : (p.put s).cfg = s.cfg := rfl
@[simp] theorem ParameterRegs.put_ctx : (p.put s).ctx = s.ctx := rfl
@[simp] theorem ParameterRegs.put_deviceFault : (p.put s).deviceFault = s.deviceFault := rfl
@[simp] theorem ParameterRegs.put_draws : (p.put s).draws = s.draws := rfl

/-- Every completion commutes with a write of the ten registers. -/
theorem turnAway_put (free : Nat → Byte) (k : StatusCode) (rs : List Region) :
    turnAway free k rs (p.put s) = p.put (turnAway free k rs s) := rfl

theorem failDevice_put (free : Nat → Byte) (op : Operation) :
    failDevice free op (p.put s) = p.put (failDevice free op s) := rfl

theorem succeed_put (free : Nat → Byte) (op : Operation) :
    succeed free op (p.put s) = p.put (succeed free op s) := rfl

theorem runOperation_put (i : Instr) (op : Operation) :
    runOperation i op (p.put s) = mapNext p.put (runOperation i op s) := by
  simp only [runOperation, apply_ite (mapNext p.put), mapNext_next, mapNext_refused, ParameterRegs.put_cfg,
    ParameterRegs.put_ctx, ParameterRegs.put_deviceFault, ParameterRegs.put_draws, turnAway_put, failDevice_put,
    succeed_put]
  rfl

theorem exec_put (i : Instr) : exec i (p.put s) = mapNext p.put (exec i s) := by
  rw [exec_eq_runOperation, exec_eq_runOperation, ParameterRegs.put_cfg, runOperation_put]

end

/-- Settles O24: the checks read the parameters and the context, and each completion commutes with the register
writes. -/
theorem operationReadsContextOnly : Obligations.OperationReadsContextOnly := by
  intro i s c w h l sl sh dl dh al ah
  refine (exec_put ⟨c, w, h, l, sl, sh, dl, dh, al, ah⟩ s i).trans ?_
  cases exec i s <;> rfl

end Sys2Proof.Machine

/-! PROOFS. The addresses an operation writes (20_memory R69 to R79, R90): those of its destination region, every byte
once, and the bytes an extract writes. -/

namespace Sys2Proof.Machine

/-! ### Raster order: a frame's coordinates, numbered row by row -/

/-- The coordinates of a `w` by `h` grid in raster order: what `Ctx.pixels` and `Ctx.blocks` list. -/
def raster (w h : Nat) : List (Nat × Nat) := (List.range h).flatMap fun y => (List.range w).map fun x => (x, y)

theorem pixels_eq_raster (x : Ctx) : x.pixels = raster x.W x.H := rfl

theorem blocks_eq_raster (x : Ctx) : x.blocks = raster x.CW x.CH := rfl

@[simp] theorem mem_raster {w h : Nat} {p : Nat × Nat} : p ∈ raster w h ↔ p.1 < w ∧ p.2 < h := by
  obtain ⟨px, py⟩ := p
  simp [raster, and_comm]

/-- Consecutive runs of `n` numbers, one after another, are one run. -/
theorem flatMap_range'_consecutive (b n k : Nat) :
    ((List.range k).flatMap fun i => List.range' (b + i * n) n) = List.range' b (k * n) := by
  induction k with
  | zero => simp
  | succ k ih =>
    rw [List.range_succ, List.flatMap_append, ih, List.flatMap_singleton, List.range'_append_1, Nat.succ_mul]

/-- Raster order numbers the coordinates 0, 1, 2 and so on. -/
theorem raster_map_index (w h : Nat) : (raster w h).map (fun p => p.2 * w + p.1) = List.range (w * h) := by
  have hrow : ∀ y, ((List.range w).map fun x => (x, y)).map (fun p => p.2 * w + p.1) = List.range' (0 + y * w) w := by
    intro y
    rw [List.map_map, Nat.zero_add, List.range'_eq_map_range]
    rfl
  rw [raster, List.map_flatMap, funext hrow, flatMap_range'_consecutive, Nat.mul_comm, List.range_eq_range']

theorem length_raster (w h : Nat) : (raster w h).length = w * h := by
  simpa using congrArg List.length (raster_map_index w h)

/-! ### Where the data channel places its samples -/

theorem place_mem_blocks (x : Ctx) (flip : Bool) {k : Nat} (hk : k < x.NC) : place x k flip ∈ x.blocks := by
  have hW : 0 < x.CW := Nat.pos_of_mul_pos_right (Nat.zero_lt_of_lt hk)
  have hrow : k / x.CW < x.CH := Nat.div_lt_of_lt_mul hk
  rw [blocks_eq_raster, mem_raster]
  refine ⟨Nat.mod_lt k hW, ?_⟩
  cases flip
  · exact hrow
  · exact Nat.sub_one_sub_lt_of_lt hrow

theorem place_inj (x : Ctx) (flip : Bool) {k l : Nat} (hk : k < x.NC) (hl : l < x.NC)
    (h : place x k flip = place x l flip) : k = l := by
  obtain ⟨hcol, hrow⟩ := Prod.mk.inj h
  have hkrow : k / x.CW < x.CH := Nat.div_lt_of_lt_mul hk
  have hlrow : l / x.CW < x.CH := Nat.div_lt_of_lt_mul hl
  have hdiv : k / x.CW = l / x.CW := by
    cases flip
    · simpa using hrow
    · simp at hrow
      omega
  rw [← Nat.div_add_mod k x.CW, ← Nat.div_add_mod l x.CW, hcol, hdiv]

/-- The U indices are placed in every block once, with either flip (43_data_channel R272). -/
theorem map_place_perm_blocks (x : Ctx) (flip : Bool) :
    ((List.range x.NC).map fun k => place x k flip).Perm x.blocks := by
  have hnodup : ((List.range x.NC).map fun k => place x k flip).Nodup :=
    List.nodup_range.map_on fun k hk l hl => place_inj x flip (List.mem_range.1 hk) (List.mem_range.1 hl)
  have hsub : ((List.range x.NC).map fun k => place x k flip) ⊆ x.blocks := by
    intro p hp
    obtain ⟨k, hk, rfl⟩ := List.mem_map.1 hp
    exact place_mem_blocks x flip (List.mem_range.1 hk)
  refine (List.subperm_of_subset hnodup hsub).perm_of_length_le ?_
  rw [blocks_eq_raster, length_raster, List.length_map, List.length_range, Ctx.NC]

/-! ### The addresses an operation writes -/

/-- The addresses of some byte writes. -/
def addresses (cells : List Host.Cell) : List Nat := cells.map Prod.fst

theorem addresses_append (l k : List Host.Cell) : addresses (l ++ k) = addresses l ++ addresses k := List.map_append

/-- A pixel's channels lie one after another, and so do the pixels (20_memory R79). -/
theorem addresses_storeRgb (c : Config) (t : RgbType) (x : Ctx) (b px py : Nat) (p : Rgb) :
    addresses (storeRgb c t x b px py p)
      = List.range' (b + (py * x.W + px) * (channels t * bytesPerChannel t)) (channels t * bytesPerChannel t) := by
  cases t <;>
    simp [addresses, storeRgb, channelCells, alphaCells, cells32, addrRgb, channels, bytesPerChannel, List.range'] <;>
    omega

theorem addresses_yuvToRgbCells (c : Config) (l : YuvLayout) (t : RgbType) (x : Ctx) (m : Memory) :
    addresses (yuvToRgbCells c l t x m) = List.range' x.dst.toNat (rgbSize t x) := by
  calc addresses (yuvToRgbCells c l t x m)
      = x.pixels.flatMap fun p => List.range' (x.dst.toNat + (p.2 * x.W + p.1) * (channels t * bytesPerChannel t))
          (channels t * bytesPerChannel t) := by
        rw [addresses, yuvToRgbCells, List.map_flatMap]
        exact congrArg x.pixels.flatMap (funext fun p => addresses_storeRgb ..)
    _ = (List.range x.NY).flatMap fun i => List.range' (x.dst.toNat + i * (channels t * bytesPerChannel t))
          (channels t * bytesPerChannel t) := by
        rw [Ctx.NY, ← raster_map_index, List.flatMap_map, pixels_eq_raster]
    _ = List.range' x.dst.toNat (rgbSize t x) := by
        rw [flatMap_range'_consecutive, rgbSize, Nat.mul_comm]

theorem addresses_lumaCells (c : Config) (t : RgbType) (x : Ctx) (m : Memory) (free : Nat → Byte) :
    addresses (lumaCells c t x m free) = List.range' x.dst.toNat x.NY := by
  rw [List.range'_eq_map_range, Ctx.NY, ← raster_map_index, List.map_map, ← pixels_eq_raster, addresses, lumaCells,
    List.map_map]
  refine List.map_congr_left fun p _ => ?_
  simp [addrY, Nat.add_assoc]

/-- The two chroma addresses of a block (20_memory R70 to R72). -/
def chromaAddrs (l : Sub420) (x : Ctx) (p : Nat × Nat) : List Nat :=
  [addrU l x x.dst.toNat p.1 p.2, addrV l x x.dst.toNat p.1 p.2]

/-- Two planes of `n` bytes, written a byte of each at a time, are one run of bytes. -/
theorem planes_perm (b n : Nat) :
    ((List.range n).flatMap fun i => [b + i, b + n + i]).Perm (List.range' b (2 * n)) := by
  refine (List.flatMap_append_perm (List.range n) (fun i => [b + i]) (fun i => [b + n + i])).symm.trans ?_
  rw [← List.map_eq_flatMap, ← List.map_eq_flatMap, ← List.range'_eq_map_range, ← List.range'_eq_map_range,
    List.range'_append_1, Nat.two_mul]

/-- The chroma samples of all blocks fill the bytes after the luma plane (20_memory R70 to R72). -/
theorem chromaAddrs_blocks_perm (l : Sub420) {x : Ctx} (hW : x.W % 2 = 0) :
    (x.blocks.flatMap (chromaAddrs l x)).Perm (List.range' (x.dst.toNat + x.NY) (2 * x.NC)) := by
  have hindex (f : Nat → List Nat) (hf : ∀ p, chromaAddrs l x p = f (p.2 * x.CW + p.1)) :
      x.blocks.flatMap (chromaAddrs l x) = (List.range x.NC).flatMap f := by
    rw [funext hf, Ctx.NC, ← raster_map_index, List.flatMap_map, blocks_eq_raster]
  cases l with
  | i420 =>
    rw [hindex fun i => [x.dst.toNat + x.NY + i, x.dst.toNat + x.NY + x.NC + i]]
    · exact planes_perm ..
    · intro p
      simp [chromaAddrs, addrU, addrV, Nat.add_assoc]
  | yv12 =>
    rw [hindex fun i => [x.dst.toNat + x.NY + x.NC + i, x.dst.toNat + x.NY + i]]
    · exact (List.Perm.flatMap_left _ fun i _ => List.Perm.swap ..).trans (planes_perm ..)
    · intro p
      simp [chromaAddrs, addrU, addrV, Nat.add_assoc]
  | nv12 =>
    rw [hindex fun i => List.range' (x.dst.toNat + x.NY + i * 2) 2]
    · rw [flatMap_range'_consecutive, Nat.mul_comm]
    · intro p
      have hrow : p.2 * x.W = 2 * (p.2 * x.CW) := by
        rw [Nat.mul_left_comm, Ctx.CW, Nat.mul_div_cancel' (Nat.dvd_of_mod_eq_zero hW)]
      simp [chromaAddrs, addrU, addrV, List.range', hrow]
      omega

theorem addresses_rgbToYuvCells_perm (c : Config) (t : RgbType) (l : Sub420) {x : Ctx} (m : Memory)
    (free : Nat → Byte) (hW : x.W % 2 = 0) :
    (addresses (rgbToYuvCells c t l x m free)).Perm (List.range' x.dst.toNat (yuvSize (.sub420 l) x)) := by
  rw [rgbToYuvCells, addresses_append, addresses_lumaCells, yuvSize, ← List.range'_append_1, addresses,
    List.map_flatMap]
  exact (chromaAddrs_blocks_perm l hW).append_left _

theorem addresses_embedCells_perm (c : Config) (t : RgbType) (flip : Bool) {x : Ctx} (m : Memory)
    (free : Nat → Byte) (hW : x.W % 2 = 0) :
    (addresses (embedCells c t flip x m free)).Perm (List.range' x.dst.toNat (yuvSize (.sub420 .i420) x)) := by
  have hblocks := (map_place_perm_blocks x flip).flatMap_right (chromaAddrs .i420 x)
  rw [List.flatMap_map] at hblocks
  rw [embedCells, addresses_append, addresses_lumaCells, yuvSize, ← List.range'_append_1, addresses,
    List.map_flatMap]
  exact (hblocks.trans (chromaAddrs_blocks_perm .i420 hW)).append_left _

/-- How many bytes of its auxiliary region an operation writes (43_data_channel R290). -/
def auxBytesWritten (c : Config) (op : Operation) (x : Ctx) : Nat :=
  match op with
  | .extract _ => extractBytes c x
  | _ => 0

/-- An operation on a frame of even width writes its destination region and, an extract, the start of its auxiliary
region, every byte once. -/
theorem addresses_operationCells_perm (c : Config) (op : Operation) {x : Ctx} (m : Memory) (free : Nat → Byte)
    (hW : x.W % 2 = 0) :
    (addresses (operationCells c op x m free)).Perm
      (List.range' (dstRegion op x).base (dstRegion op x).size
        ++ List.range' x.aux.toNat (auxBytesWritten c op x)) := by
  cases op with
  | yuvToRgb l t => simp [operationCells, addresses_yuvToRgbCells, dstRegion, auxBytesWritten]
  | rgbToYuv t l =>
    simpa [operationCells, dstRegion, auxBytesWritten] using addresses_rgbToYuvCells_perm c t l m free hW
  | embed t flip =>
    simpa [operationCells, dstRegion, auxBytesWritten] using addresses_embedCells_perm c t flip m free hW
  | extract t =>
    refine .of_eq ?_
    rw [operationCells, extractCells, addresses_append, addresses_yuvToRgbCells, addresses, List.map_map,
      auxBytesWritten, List.range'_eq_map_range (s := x.aux.toNat)]
    rfl

/-- An address is written when it lies in the destination region, or among the bytes an extract writes. -/
theorem mem_addresses_operationCells {c : Config} {op : Operation} {x : Ctx} {m : Memory} {free : Nat → Byte}
    (hW : x.W % 2 = 0) {a : Nat} :
    a ∈ addresses (operationCells c op x m free) ↔
      inRegion (dstRegion op x) a = true ∨ x.aux.toNat ≤ a ∧ a < x.aux.toNat + auxBytesWritten c op x := by
  rw [(addresses_operationCells_perm c op m free hW).mem_iff]
  simp [inRegion]

/-- Settles O22: all but the extract write no auxiliary byte, so their addresses are the run of the destination region
in some order. -/
theorem writesCoverDestinationOnce : Obligations.WritesCoverDestinationOnce := by
  intro c op x m free hop _ _ hW _
  have haux : auxBytesWritten c op x = 0 := by
    cases op with
    | extract t => exact absurd rfl (hop t)
    | _ => rfl
  refine ⟨?_, fun a => ?_⟩
  · refine (addresses_operationCells_perm c op m free hW).nodup_iff.2 ?_
    simpa [haux] using List.nodup_range'
  · refine (mem_addresses_operationCells hW).trans ?_
    simp [haux]

end Sys2Proof.Machine

/-! PROOFS. The ordering rules of memory (20_memory R65, R66, R90, R93, R94): what overlapping regions and stores during
an operation leave, what a load returns, which buffers are refused and how they are aligned. -/

namespace Sys2Proof.Machine

/-! ### The regions an operation writes -/

theorem extractBytes_le (c : Config) (x : Ctx) : extractBytes c x ≤ x.auxBytes := by
  unfold extractBytes
  split
  · exact le_rfl
  · exact Nat.min_le_left ..

theorem even_width_of_valid {c : Config} {op : Operation} {x : Ctx} (h : invalidArgument c op x = false) :
    x.W % 2 = 0 := by
  obtain ⟨-, -, -, -, -, hW, -⟩ := invalidArgument_false h
  exact hW

theorem even_width_of_executes {i : Instr} {op : Operation} {s : State} (h : Executes i op s) : s.ctx.W % 2 = 0 :=
  even_width_of_valid h.2.1

/-- An operation writes inside the regions R60 lets it write. -/
theorem inRegions_of_mem_addresses {c : Config} {op : Operation} {x : Ctx} {m : Memory} {free : Nat → Byte}
    (hW : x.W % 2 = 0) {a : Nat} (h : a ∈ addresses (operationCells c op x m free)) :
    inRegions (writeRegions op x) a = true := by
  have hlen := extractBytes_le c x
  rcases (mem_addresses_operationCells hW).1 h with hd | ⟨hlo, hhi⟩
  · cases op <;> simp [inRegions, writeRegions, hd]
  · cases op with
    | extract t =>
      have hr : inRegion (auxRegion (.extract t) x) a = true := by
        simp only [auxBytesWritten] at hhi
        simp only [inRegion, auxRegion, usesAux, if_true, Bool.and_eq_true, decide_eq_true_eq]
        omega
      simp [inRegions, writeRegions, hr]
    | _ =>
      simp only [auxBytesWritten] at hhi
      omega

/-- The regions that a valid operation writes lie in the memory space (20_memory R63). -/
theorem lt_of_inRegions_writeRegions {c : Config} {op : Operation} {x : Ctx} (h : invalidArgument c op x = false)
    {a : Nat} (ha : inRegions (writeRegions op x) a = true) : a < 2 ^ c.addrW := by
  obtain ⟨-, -, -, -, -, -, -, -, hdst, haux⟩ := invalidArgument_false h
  have hend : ∃ r ∈ writeRegions op x, r.base ≤ a ∧ a < r.base + r.size := by
    simpa [inRegions, inRegion] using ha
  obtain ⟨r, hr, -, hlt⟩ := hend
  cases op with
  | extract t =>
    rcases List.mem_cons.1 hr with rfl | hr
    · exact hlt.trans_le hdst
    · rw [List.mem_singleton.1 hr] at hlt
      exact hlt.trans_le (haux rfl)
  | _ =>
    rw [List.mem_singleton.1 hr] at hlt
    exact hlt.trans_le hdst

/-! ### What a successful operation leaves in memory -/

/-- Byte writes of free values leave the free value at each of their addresses. -/
theorem read_writeAll_free {m : Memory} (hm : m.wf = true) {free : Nat → Byte} {cells : List Host.Cell}
    (hfree : ∀ p ∈ cells, p.2 = free p.1) {a : Nat} (ha : a ∈ addresses cells) :
    (m.writeAll cells).read a = free a := by
  obtain ⟨p, hp, rfl⟩ := List.mem_map.1 ha
  refine Memory.read_writeAll_mem hm cells p.1 (free p.1) ?_ fun q hq hqp => hqp ▸ hfree q hq
  rw [← hfree p hp]
  exact hp

section
variable {op : Operation} {s : State} {free : Nat → Byte}

theorem outputCells_of_free (h : outputFree op s = true) :
    outputCells free op s = freedCells free op s (operationCells s.cfg op s.ctx s.mem free) :=
  if_pos h

theorem outputCells_of_undisturbed (h : outputFree op s = false) :
    outputCells free op s = operationCells s.cfg op s.ctx s.mem free :=
  if_neg (Bool.eq_false_iff.1 h)

theorem mem_freedCells {cells : List Host.Cell} {p : Host.Cell} :
    p ∈ freedCells free op s cells ↔
      (p.1 ∈ addresses cells ∨ StoredTo (writeRegions op s.ctx) s p.1) ∧ p.2 = free p.1 := by
  obtain ⟨a, v⟩ := p
  simp only [freedCells, List.mem_append, mem_storedCells, addresses, StoredTo, List.mem_map, Prod.mk.injEq]
  grind

theorem inRegions_of_mem_outputCells (hW : s.ctx.W % 2 = 0) {p : Host.Cell} (hp : p ∈ outputCells free op s) :
    inRegions (writeRegions op s.ctx) p.1 = true := by
  cases ho : outputFree op s with
  | false =>
    rw [outputCells_of_undisturbed ho] at hp
    exact inRegions_of_mem_addresses hW (List.mem_map_of_mem hp)
  | true =>
    rw [outputCells_of_free ho, mem_freedCells] at hp
    obtain ⟨hwritten | ⟨-, hregion, -⟩, -⟩ := hp
    · exact inRegions_of_mem_addresses hW hwritten
    · exact hregion

theorem succeed_keptOutside (hW : s.ctx.W % 2 = 0) : KeptOutside (writeRegions op s.ctx) s (succeed free op s) := by
  intro a ha
  refine Memory.read_writeAll_other _ _ _ fun p hp hpa => ?_
  have hin := inRegions_of_mem_outputCells hW hp
  rw [hpa, ha] at hin
  cases hin

theorem succeed_completed : Completed .success (operationCount s.cfg op s.ctx) s (succeed free op s) := rfl

/-- Where R93 or R94 frees the output, every byte written or stored to meanwhile holds its free value. -/
theorem read_succeed_of_free (hm : s.mem.wf = true) (ho : outputFree op s = true) {a : Nat}
    (ha : a ∈ addresses (operationCells s.cfg op s.ctx s.mem free) ∨ StoredTo (writeRegions op s.ctx) s a) :
    (succeed free op s).mem.read a = free a := by
  rw [succeed_mem, outputCells_of_free ho]
  exact read_writeAll_free hm (fun p hp => (mem_freedCells.1 hp).2)
    (List.mem_map.2 ⟨(a, free a), mem_freedCells.2 ⟨ha, rfl⟩, rfl⟩)

/-- Where R93 or R94 frees the output, every byte of the destination region holds its free value. -/
theorem read_succeed_dst_of_free (hW : s.ctx.W % 2 = 0) (hm : s.mem.wf = true) (ho : outputFree op s = true) {a : Nat}
    (ha : inRegion (dstRegion op s.ctx) a = true) : (succeed free op s).mem.read a = free a :=
  read_succeed_of_free hm ho (.inl ((mem_addresses_operationCells hW).2 (.inl ha)))

/-- Where R93 or R94 frees the output, every auxiliary byte written holds its free value. -/
theorem read_succeed_aux_of_free (hW : s.ctx.W % 2 = 0) (hm : s.mem.wf = true) (ho : outputFree op s = true) {k : Nat}
    (hk : k < auxBytesWritten s.cfg op s.ctx) :
    (succeed free op s).mem.read (s.ctx.aux.toNat + k) = free (s.ctx.aux.toNat + k) :=
  read_succeed_of_free hm ho (.inl ((mem_addresses_operationCells hW).2 (.inr ⟨by omega, by omega⟩)))

end

/-- An instruction that executes with no device failure completes with SUCCESS. -/
theorem exec_succeeds {i : Instr} {s : State} (h : Executes i (operationOf s.cfg i) s) (hf : s.deviceFault = false) :
    exec i s = .next (succeed (Config.freeByte s.draws) (operationOf s.cfg i) s) := by
  rw [exec_eq_runOperation, runOperation_succeeds h hf]

/-- Settles O20: an overlap frees the output, whose addresses cover the destination region. -/
theorem overlapLeavesAnyValue : Obligations.OverlapLeavesAnyValue := by
  intro i s hx hf hm hoverlap
  have hW := even_width_of_executes hx
  have ho : outputFree (operationOf s.cfg i) s = true := by simp [outputFree, hoverlap]
  refine ⟨_, exec_succeeds hx hf, succeed_completed, succeed_keptOutside hW,
    fun a => read_succeed_dst_of_free hW hm ho, ?_⟩
  rintro rfl k hk
  exact read_succeed_aux_of_free hW hm ho hk

/-! ### A store during an operation, and then the core's turn -/

theorem store_inSpace {a : Addr} {bytes : List Byte} {s : State} (h : a.toNat + bytes.length ≤ 2 ^ s.cfg.addrW) :
    store a bytes s = .next (hostStore a.toNat bytes s) :=
  if_pos (decide_eq_true h)

theorem storeByAgent_inSpace {a : Addr} {bytes : List Byte} {s : State}
    (h : a.toNat + bytes.length ≤ 2 ^ s.cfg.addrW) : storeByAgent a bytes s = .next (agentStore a.toNat bytes s) :=
  if_pos (decide_eq_true h)

theorem recordStore_of_busy {s : State} (hp : s.phase = .busy) (a : Nat) :
    recordStore a s = { s with touched := a :: s.touched } := by
  simp [recordStore, hp]

/-- `s` with no input left, a store to `a` on record, and what the store left in memory and in the host's cache. -/
def afterStore (a : Nat) (m : Memory) (cache : List CacheLine) (s : State) : State :=
  { s with inputs := [], touched := a :: s.touched, mem := m, hostCache := cache }

theorem mem_touched_afterStore (a : Nat) (m : Memory) (cache : List CacheLine) (s : State) :
    a ∈ (afterStore a m cache s).touched :=
  List.mem_cons_self

/-- A byte stored while BUSY, by the host or another agent, is recorded, and memory changes at its address at most
(20_memory R93). -/
theorem step_store_of_busy {s : State} {a : Addr} {v : Byte} (hp : s.phase = .busy) (hm : s.mem.wf = true)
    (hi : s.inputs = [.store a [v]] ∨ s.inputs = [.agentStore a [v]]) (ha : a.toNat < 2 ^ s.cfg.addrW) :
    ∃ m cache, step s = .next (afterStore a.toNat m cache s) ∧ m.wf = true
      ∧ ∀ b, b ≠ a.toNat → m.read b = s.mem.read b := by
  have hperform : performStore a.toNat v { s with inputs := [] }
      = afterStore a.toNat (s.mem.write a.toNat v) s.hostCache s := by
    rw [performStore, recordStore_of_busy (s := { s with inputs := [] }) hp, afterStore]
  have hwrite : (s.mem.write a.toNat v).wf = true ∧ ∀ b, b ≠ a.toNat → (s.mem.write a.toNat v).read b = s.mem.read b :=
    ⟨Memory.wf_write hm .., fun b hb => Memory.read_write_other _ _ _ _ hb⟩
  rcases hi with hi | hi
  · have hstep : step s = .next (hostStoreByte a.toNat v { s with inputs := [] }) :=
      (step_of_input hi).trans (store_inSpace (s := { s with inputs := [] }) ha)
    rcases hostStoreByte_cases a.toNat v { s with inputs := [] } with ⟨-, h⟩ | ⟨-, h⟩
    · exact ⟨_, _, hstep.trans (congrArg _ (h.trans hperform)), hwrite⟩
    · rw [recordStore_of_busy (s := { s with inputs := [] }) hp] at h
      exact ⟨_, _, hstep.trans (congrArg _ h), hm, fun _ _ => rfl⟩
  · have hstep : step s = .next (performStore a.toNat v { s with inputs := [] }) :=
      (step_of_input hi).trans (storeByAgent_inSpace (s := { s with inputs := [] }) ha)
    exact ⟨_, _, hstep.trans (congrArg _ hperform), hwrite⟩

/-- A BUSY core with no input left runs the instruction its latched word names. -/
theorem step_of_decode {s : State} {i : Instr} (hi : s.inputs = []) (hp : s.phase = .busy)
    (hd : decode s.cfg s.ctx.cmd = .ok i) : step s = exec i s := by
  rw [step_of_no_inputs hi]
  simp [coreTurn, hp, hd]

/-- After the store the core's turn is next, on the operands it had. -/
theorem step_afterStore {s : State} {i : Instr} (a : Nat) (m : Memory) (cache : List CacheLine) (hp : s.phase = .busy)
    (hd : decode s.cfg s.ctx.cmd = .ok i) : step (afterStore a m cache s) = exec i (afterStore a m cache s) :=
  step_of_decode (s := afterStore a m cache s) rfl hp hd

theorem outputFree_of_touched {op : Operation} {s : State} {a : Nat} (ha : a ∈ s.touched)
    (hr : inRegions (readRegions op s.ctx ++ writeRegions op s.ctx) a = true) : outputFree op s = true := by
  have hdist : disturbed op s = true := List.any_eq_true.2 ⟨a, ha, hr⟩
  simp [outputFree, hdist]

/-- Settles O21: the store is on record when the operation completes, which frees its output. -/
theorem storeDuringRunFreesOutput : Obligations.StoreDuringRunFreesOutput := by
  intro i s a v hp hd hx hf hm hi ha hr
  obtain ⟨m, cache, hstep, hwf, -⟩ := step_store_of_busy hp hm hi ha
  have hW : (afterStore a.toNat m cache s).ctx.W % 2 = 0 := even_width_of_executes hx
  have hrec := mem_touched_afterStore a.toNat m cache s
  have ho : outputFree (operationOf s.cfg i) (afterStore a.toNat m cache s) = true := outputFree_of_touched hrec hr
  have hturn : step (afterStore a.toNat m cache s)
      = .next (succeed (Config.freeByte s.draws) (operationOf s.cfg i) (afterStore a.toNat m cache s)) :=
    (step_afterStore _ m cache hp hd).trans (exec_succeeds (s := afterStore a.toNat m cache s) hx hf)
  refine ⟨_, _, hstep, hturn, rfl, rfl, fun b => read_succeed_dst_of_free hW hwf ho, ?_, fun hw => ?_⟩
  · rintro rfl k hk
    exact read_succeed_aux_of_free hW hwf ho hk
  · exact read_succeed_of_free hwf ho (.inr ⟨hrec, hw, ha⟩)

/-- The code of the first check that an operation fails, if it fails one (60_exceptions R302). -/
def rejectCode (i : Instr) (op : Operation) (s : State) : StatusCode :=
  if i ∉ s.cfg.supported then .unsupported
  else if invalidArgument s.cfg op s.ctx = true then .invalidArgument else .capacityExceeded

/-- An operation that fails a check is turned away with that check's code. -/
theorem runOperation_rejects {i : Instr} {op : Operation} {s : State}
    (h : i ∉ s.cfg.supported ∨ invalidArgument s.cfg op s.ctx = true ∨ capacityExceeded s.cfg op s.ctx = true) :
    runOperation i op s
      = .next (turnAway (Config.freeByte s.draws) (rejectCode i op s) (writeRegions op s.ctx) s) := by
  unfold runOperation rejectCode
  split_ifs <;> simp_all

/-- Settles O56: the byte stored is the only one on record, so the only one freed. -/
theorem storeToRejectedDestinationFreesIt : Obligations.StoreToRejectedDestinationFreesIt := by
  intro i s a v hp hd hfail hm htouched hi ha hr
  obtain ⟨m, cache, hstep, hwf, hother⟩ := step_store_of_busy hp hm hi ha
  have hturn : step (afterStore a.toNat m cache s)
      = .next (turnAway (Config.freeByte s.draws) (rejectCode i (operationOf s.cfg i) s)
          (writeRegions (operationOf s.cfg i) s.ctx) (afterStore a.toNat m cache s)) := by
    rw [step_afterStore _ m cache hp hd, exec_eq_runOperation]
    exact runOperation_rejects (s := afterStore a.toNat m cache s) hfail
  have hcells {p : Host.Cell} := mem_storedCells (free := Config.freeByte s.draws)
    (rs := writeRegions (operationOf s.cfg i) s.ctx) (s := afterStore a.toNat m cache s) (p := p)
  refine ⟨_, _, hstep, hturn, rfl, ?_, fun b hb => ?_⟩
  · exact read_writeAll_free hwf (fun p hp => (hcells.1 hp).2.2.2)
      (List.mem_map.2 ⟨(a.toNat, Config.freeByte s.draws a.toNat), hcells.2 ⟨List.mem_cons_self, hr, ha, rfl⟩, rfl⟩)
  · refine (Memory.read_writeAll_other _ _ _ fun p hp hpb => hb ?_).trans (hother b hb)
    have hrec : p.1 ∈ a.toNat :: s.touched := (hcells.1 hp).1
    rw [htouched, List.mem_singleton] at hrec
    exact hpb ▸ hrec

/-! ### Loads -/

section
variable {s : State} {a : Nat}

theorem load_inSpace {a : Addr} (h : a.toNat < 2 ^ s.cfg.addrW) : load a s = .next (hostLoad a.toNat s) :=
  if_pos (decide_eq_true h)

theorem hostByte_of_coherent (h : s.cfg.coherent = true) : hostByte s a = s.mem.read a := by simp [hostByte, h]

theorem hostByte_of_cached {l : CacheLine} (h : s.cfg.coherent = false) (hl : cachedLine s.hostCache a = some l) :
    hostByte s a = l.byte := by
  simp [hostByte, h, hl]

theorem hostByte_of_uncached (h : cachedLine s.hostCache a = none) : hostByte s a = s.mem.read a := by
  simp [hostByte, h]

theorem observedByte_of_writing (hp : s.phase = .busy) (hr : inRegions (contextRegions s.ctx) a = true) :
    observedByte s a = Config.freeByte s.draws a := by
  simp [observedByte, observed, busyRegions, hp, hr]

theorem observedByte_of_not_writing (h : s.phase = .idle ∨ inRegions (contextRegions s.ctx) a = false) :
    observedByte s a = hostByte s a := by
  rcases observedByte_cases s a with ⟨hp, hr, -⟩ | ⟨-, hb⟩
  · simp [hp, hr] at h
  · exact hb

end

/-- Settles O35: by whether the address lies in what a BUSY core writes, and else by what the host has cached. -/
theorem loadDuringRunIsFree : Obligations.LoadDuringRunIsFree := by
  intro s a rest hi ha
  refine ⟨_, (step_of_input hi).trans (load_inSpace ha), rfl, rfl, fun i hp hd hr => ?_, fun hout => ?_⟩
  · rw [← contextRegions_of_decode hd] at hr
    exact observedByte_of_writing hp hr
  · have hnone : s.phase = .idle ∨ inRegions (contextRegions s.ctx) a.toNat = false := by
      refine hout.imp_right ?_
      rintro ⟨i, hd, hr⟩
      rw [contextRegions_of_decode hd, hr]
    have hfound : observedByte { s with inputs := rest } a.toNat = hostByte { s with inputs := rest } a.toNat :=
      observedByte_of_not_writing hnone
    exact ⟨fun hc => hfound.trans (hostByte_of_coherent hc), fun l hc hl => hfound.trans (hostByte_of_cached hc hl),
      fun hl => hfound.trans (hostByte_of_uncached hl)⟩

/-! ### Buffers the model refuses, and alignment -/

/-- Settles O13: with every check passed, the course of the operation comes to the refusal of R66. -/
theorem sideEffectBufferRefused : Obligations.SideEffectBufferRefused := by
  intro i s hsup hvalid hcap hon
  rw [exec_eq_runOperation]
  simp [runOperation, hsup, hvalid, hcap, hon]

theorem base_aligned_of_valid {c : Config} {op : Operation} {x : Ctx} (h : invalidArgument c op x = false)
    (hsz : bytesPerChannel (rgbBuffer op x).1 = 4) : (rgbBuffer op x).2 % 4 = 0 := by
  simp only [invalidArgument, Bool.or_eq_false_iff] at h
  obtain ⟨⟨-, halign⟩, -⟩ := h
  simpa [misalignedFloat, hsz] using halign

/-- Settles O49: channels of 4 bytes lie at multiples of 4 from an aligned base. -/
theorem floatChannelsAligned : Obligations.FloatChannelsAligned := by
  intro c op x hvalid hsz px py ch
  have hbase := base_aligned_of_valid hvalid hsz
  rw [addrRgb, hsz]
  omega

end Sys2Proof.Machine

/-! PROOFS. Every step keeps the invariant: memory in its canonical form and inside the memory space (20_memory R60,
R63), the host's cache inside it, and the status fields consistent (10_state R27, R33, 40_transform R130). -/

namespace Sys2Proof.Machine

/-! ### Completions -/

section
variable {s : State}

theorem inv_complete_writeAll (h : Inv s) (k : StatusCode) (n d : Nat) {cells : List Host.Cell}
    (hcells : ∀ p ∈ cells, p.1 < 2 ^ s.cfg.addrW) :
    Inv (complete k n { s with mem := s.mem.writeAll cells, draws := d }) := by
  obtain ⟨hwf, hin, hcache, -, -⟩ := h
  refine ⟨Memory.wf_writeAll hwf cells, Memory.within_writeAll hin cells hcells, hcache, ?_, fun hk => if_neg hk⟩
  intro hp
  cases hp

theorem inv_turnAway (h : Inv s) (free : Nat → Byte) (k : StatusCode) (rs : List Region) :
    Inv (turnAway free k rs s) :=
  inv_complete_writeAll h k 0 _ fun _ hp => (mem_storedCells.1 hp).2.2.1

theorem inv_failDevice {op : Operation} (h : Inv s) (free : Nat → Byte)
    (hvalid : invalidArgument s.cfg op s.ctx = false) : Inv (failDevice free op s) :=
  inv_complete_writeAll h _ 0 _ fun _ hp => lt_of_inRegions_writeRegions hvalid (mem_freeCells.1 hp).1

theorem inv_succeed {op : Operation} (h : Inv s) (free : Nat → Byte)
    (hvalid : invalidArgument s.cfg op s.ctx = false) : Inv (succeed free op s) :=
  inv_complete_writeAll h _ _ _ fun _ hp =>
    lt_of_inRegions_writeRegions hvalid (inRegions_of_mem_outputCells (even_width_of_valid hvalid) hp)

/-! ### Reset and the register writes -/

theorem inv_resetCore (h : Inv s) : Inv (resetCore s) := by
  obtain ⟨hwf, hin, hcache, -, -⟩ := h
  refine ⟨Memory.wf_writeAll hwf _, Memory.within_writeAll hin _ fun p hp => ?_, hcache, ?_, fun _ => rfl⟩
  · have hr := (mem_freeCells.1 hp).1
    rw [inRegions_map_clampRegion, Bool.and_eq_true, decide_eq_true_eq] at hr
    exact hr.2
  · intro hp
    cases hp

theorem inv_start (h : Inv s) : Inv (start s) := by
  cases hp : s.phase with
  | busy => rwa [start_of_busy s hp]
  | idle =>
    obtain ⟨hwf, hin, hcache, -, -⟩ := h
    rw [start_of_idle s hp]
    exact ⟨hwf, hin, hcache, fun _ => ⟨rfl, rfl, rfl⟩, fun _ => rfl⟩

theorem inv_acknowledge (h : Inv s) : Inv (acknowledge s) := by
  obtain ⟨hwf, hin, hcache, hbusy, hcount⟩ := h
  exact ⟨hwf, hin, hcache, fun hp => ⟨rfl, (hbusy hp).2⟩, hcount⟩

theorem inv_writeReg (h : Inv s) (r : Reg) (v : Word) : Inv (writeReg r v s) := by
  cases r with
  | ctrl =>
    have hen : Inv { s with irqEn := v.getLsbD 1 } := h
    simp only [writeReg, writeCtrl]
    split
    · exact inv_start hen
    · exact hen
  | status =>
    simp only [writeReg, writeStatus]
    split
    · exact inv_acknowledge h
    · exact h
  | _ => exact h

theorem inv_writeAt (h : Inv s) (a : BusAddr) (v : Word) : Inv (writeAt a v s) := by
  unfold writeAt
  split
  · exact inv_writeReg h _ v
  · exact h

/-! ### What other agents do to memory -/

theorem inv_raiseDeviceFault (h : Inv s) : Inv (raiseDeviceFault s) := by
  unfold raiseDeviceFault
  split <;> exact h

theorem inv_performStore (h : Inv s) {a : Nat} (v : Byte) (ha : a < 2 ^ s.cfg.addrW) : Inv (performStore a v s) := by
  obtain ⟨hwf, hin, hcache, hbusy, hcount⟩ := h
  refine ⟨Memory.wf_write hwf a v, Memory.within_writeAll hin [(a, v)] fun p hp => ?_, hcache, hbusy, hcount⟩
  rwa [List.mem_singleton.1 hp]

theorem inv_recordStore (h : Inv s) (a : Nat) : Inv (recordStore a s) := h

/-- A line put into the host's cache for an address of the memory space. -/
theorem inv_putLine (h : Inv s) {l : CacheLine} (hl : l.addr < 2 ^ s.cfg.addrW) :
    Inv { s with hostCache := putLine s.hostCache l } := by
  obtain ⟨hwf, hin, hcache, hstatus⟩ := h
  refine ⟨hwf, hin, fun k hk => ?_, hstatus⟩
  rcases List.mem_cons.1 hk with rfl | hk
  · exact hl
  · exact hcache k (List.mem_of_mem_filter hk)

theorem inv_hostStoreByte (h : Inv s) {a : Nat} (v : Byte) (ha : a < 2 ^ s.cfg.addrW) : Inv (hostStoreByte a v s) := by
  rcases hostStoreByte_cases a v s with ⟨-, hs⟩ | ⟨-, hs⟩
  · exact hs ▸ inv_performStore h v ha
  · exact hs ▸ inv_putLine (inv_recordStore h a) ha

/-- A store of bytes inside the memory space keeps the invariant when each byte's store keeps it and the parameters. -/
theorem inv_storeBytes {one : Nat → Byte → State → State} (hcfg : ∀ a v t, (one a v t).cfg = t.cfg)
    (hone : ∀ {t : State}, Inv t → ∀ {a : Nat} (v : Byte), a < 2 ^ t.cfg.addrW → Inv (one a v t)) (h : Inv s) {a : Nat}
    {bytes : List Byte} (hb : a + bytes.length ≤ 2 ^ s.cfg.addrW) : Inv (storeBytes one a bytes s) := by
  refine (storeBytes_induction (P := fun t => Inv t ∧ t.cfg = s.cfg) (fun b v t hlt ht => ?_) a bytes s hb ⟨h, rfl⟩).1
  obtain ⟨hinv, hsame⟩ := ht
  exact ⟨hone hinv v (hsame ▸ hlt), (hcfg b v t).trans hsame⟩

theorem inv_hostStore (h : Inv s) {a : Nat} {bytes : List Byte} (hb : a + bytes.length ≤ 2 ^ s.cfg.addrW) :
    Inv (hostStore a bytes s) :=
  inv_storeBytes (fun a v t => hostStore_cfg t a [v]) inv_hostStoreByte h hb

theorem inv_agentStore (h : Inv s) {a : Nat} {bytes : List Byte} (hb : a + bytes.length ≤ 2 ^ s.cfg.addrW) :
    Inv (agentStore a bytes s) :=
  inv_storeBytes (fun a v t => performStore_cfg t a v) inv_performStore h hb

theorem inv_hostLoad (h : Inv s) {a : Nat} (ha : a < 2 ^ s.cfg.addrW) : Inv (hostLoad a s) := by
  unfold hostLoad loadedCache
  split
  · exact h
  · exact inv_putLine h ha

theorem inv_performLines (h : Inv s) {lines : List CacheLine} (hl : ∀ l ∈ lines, l.addr < 2 ^ s.cfg.addrW) :
    Inv (performLines lines s) := by
  induction lines generalizing s with
  | nil => exact h
  | cons l rest ih =>
    exact ih (inv_performStore h l.byte (hl l List.mem_cons_self)) fun k hk => hl k (List.mem_cons_of_mem l hk)

theorem Inv.hostCache_lt (h : Inv s) : ∀ l ∈ s.hostCache, l.addr < 2 ^ s.cfg.addrW := by
  obtain ⟨-, -, hcache, -⟩ := h
  exact hcache

theorem inv_writeBackRegion (h : Inv s) (r : Region) : Inv (writeBackRegion r s) := by
  have hcache := h.hostCache_lt
  have hperf : Inv (performLines (s.hostCache.filter (toWriteBack r)) s) :=
    inv_performLines h fun l hl => hcache l (List.mem_of_mem_filter hl)
  obtain ⟨m, touched, hframe⟩ := performLines_frame (s.hostCache.filter (toWriteBack r)) s
  rw [hframe] at hperf
  obtain ⟨hwf, hin, -, hstatus⟩ := hperf
  rw [writeBackRegion, hframe]
  refine ⟨hwf, hin, fun k hk => ?_, hstatus⟩
  obtain ⟨l, hl, rfl⟩ := List.mem_map.1 hk
  split <;> exact hcache l hl

theorem inv_discardRegion (h : Inv s) (r : Region) : Inv (discardRegion r s) := by
  obtain ⟨hwf, hin, hcache, hstatus⟩ := h
  exact ⟨hwf, hin, fun l hl => hcache l (List.mem_of_mem_filter hl), hstatus⟩

end

/-! ### Steps -/

/-- Every next state of an outcome has the invariant. -/
def GivesInv (o : Host.Outcome State Fault Refusal) : Prop := ∀ t, o = .next t → Inv t

@[simp] theorem givesInv_next {t : State} : GivesInv (.next t) ↔ Inv t := by simp [GivesInv]

@[simp] theorem givesInv_fault (f : Fault) : GivesInv (.fault f) := by simp [GivesInv]

@[simp] theorem givesInv_refused (r : Refusal) : GivesInv (.refused r) := by simp [GivesInv]

/-- An access inside the memory space gives the invariant when its next state has it; outside it, it faults. -/
theorem givesInv_guarded {c : Config} {a : Addr} {n : Nat} {t : State}
    (ht : a.toNat + n ≤ 2 ^ c.addrW → Inv t) : GivesInv (if inSpace c a n then .next t else .fault .noSuchAddress) := by
  split
  · exact givesInv_next.2 (ht (of_decide_eq_true ‹_›))
  · exact givesInv_fault _

theorem exec_givesInv {i : Instr} {s : State} (h : Inv s) : GivesInv (exec i s) := by
  intro t ht
  rw [exec_eq_runOperation] at ht
  rcases runOperation_cases ht with ⟨-, rfl⟩ | ⟨-, -, rfl⟩ | ⟨-, -, -, rfl⟩ | ⟨⟨-, hvalid, -⟩, -, rfl⟩ |
    ⟨⟨-, hvalid, -⟩, -, rfl⟩
  · exact inv_turnAway h ..
  · exact inv_turnAway h ..
  · exact inv_turnAway h ..
  · exact inv_failDevice h _ hvalid
  · exact inv_succeed h _ hvalid

theorem coreTurn_givesInv {s : State} (h : Inv s) : GivesInv (coreTurn s) := by
  rcases coreTurn_cases s with ⟨-, hc⟩ | ⟨i, -, -, hc⟩ | ⟨r, -, -, hc⟩
  · exact hc ▸ givesInv_next.2 h
  · exact hc ▸ exec_givesInv h
  · exact hc ▸ givesInv_next.2 (inv_turnAway h ..)

theorem busRead_givesInv {s : State} (h : Inv s) (a : BusAddr) (n : Nat) : GivesInv (busRead a n s) := by
  rcases busRead_cases a n s with ⟨-, hb⟩ | ⟨-, -, hb⟩ | ⟨-, hb⟩
  · exact hb ▸ givesInv_next.2 h
  · exact hb ▸ givesInv_refused _
  · exact hb ▸ givesInv_next.2 h

theorem busWrite_givesInv {s : State} (h : Inv s) (a : BusAddr) (n : Nat) (v : Word) :
    GivesInv (busWrite a n v s) := by
  rcases busWrite_cases a n v s with ⟨-, hb⟩ | ⟨-, -, hb⟩ | ⟨-, hb⟩
  · exact hb ▸ givesInv_next.2 (inv_writeAt h a v)
  · exact hb ▸ givesInv_refused _
  · exact hb ▸ givesInv_next.2 h

theorem poll_givesInv {s : State} (h : Inv s) (a : BusAddr) (mask value : Word) :
    GivesInv (poll a mask value s) := by
  unfold poll
  split
  · split
    · exact givesInv_next.2 h
    · exact coreTurn_givesInv (s := { s with rdata := readAt s a, inputs := .poll a mask value :: s.inputs }) h
  · exact givesInv_refused _

theorem deliver_givesInv {s : State} (h : Inv s) (e : Input) : GivesInv (deliver e s) := by
  cases e with
  | core => exact coreTurn_givesInv h
  | reset => exact givesInv_next.2 (inv_resetCore h)
  | deviceFault => exact givesInv_next.2 (inv_raiseDeviceFault h)
  | busRead a n => exact busRead_givesInv h a n
  | busWrite a n v => exact busWrite_givesInv h a n v
  | poll a mask v => exact poll_givesInv h a mask v
  | store a bytes => exact givesInv_guarded (inv_hostStore h)
  | load a => exact givesInv_guarded (inv_hostLoad h)
  | agentStore a bytes => exact givesInv_guarded (inv_agentStore h)
  | agentLoad a => exact givesInv_guarded fun _ => h
  | writeBack r => exact givesInv_next.2 (inv_writeBackRegion h r)
  | discard r => exact givesInv_next.2 (inv_discardRegion h r)

/-- Settles O37: a step is the core's turn or one input, and each of them keeps the invariant. -/
theorem stepKeepsInv : Obligations.StepKeepsInv := by
  intro s t h ht
  cases hi : s.inputs with
  | nil => exact coreTurn_givesInv h t (step_of_no_inputs hi ▸ ht)
  | cons e rest => exact deliver_givesInv (s := { s with inputs := rest }) h e t (step_of_input hi ▸ ht)

end Sys2Proof.Machine

/-! PROOFS. The encoding (30_encoding): a command word is its six fields, and the decoder reads an operation from a word
exactly when the word is made of that operation's fields; the steps of a loaded command and of WAIT. -/

namespace Sys2Proof

/-! ### The codes of the fields -/

/-- The YFMT code of a layout (30_encoding R101). -/
def YuvLayout.code (l : YuvLayout) : BitVec 3 :=
  match l with
  | .sub420 .i420 => 0
  | .sub420 .yv12 => 1
  | .sub420 .nv12 => 2
  | .packed .yuyv => 3
  | .packed .yvyu => 4
  | .packed .uyvy => 5

/-- The RGBT field of a sample type: its code in the field's two bits (30_encoding R102). -/
def RgbType.field (t : RgbType) : BitVec 2 := t.code.setWidth 2

theorem layoutOfCode_eq_some_iff {y : BitVec 3} {l : YuvLayout} : layoutOfCode y = some l ↔ l.code = y := by
  constructor
  · intro h
    fin_cases y <;> cases h <;> rfl
  · rintro rfl
    rcases l with p | p <;> cases p <;> rfl

theorem rgbTypeOfCode_eq_iff {b : BitVec 2} {t : RgbType} : rgbTypeOfCode b = t ↔ t.field = b := by
  constructor
  · rintro rfl
    fin_cases b <;> rfl
  · rintro rfl
    cases t <;> rfl

@[simp] theorem layoutOfCode_code (l : YuvLayout) : layoutOfCode l.code = some l := layoutOfCode_eq_some_iff.2 rfl

@[simp] theorem rgbTypeOfCode_field (t : RgbType) : rgbTypeOfCode t.field = t := rgbTypeOfCode_eq_iff.2 rfl

/-- The layouts have the YFMT codes 0 to 5 (30_encoding R101). -/
theorem exists_layout_code_iff (y : BitVec 3) : (∃ l : YuvLayout, l.code = y) ↔ y.toNat ≤ 5 := by
  constructor
  · rintro ⟨p | p, rfl⟩ <;> cases p <;> decide
  · intro h
    have hdecoded : (layoutOfCode y).isSome := by
      revert h
      fin_cases y <;> decide
    obtain ⟨l, hl⟩ := Option.isSome_iff_exists.1 hdecoded
    exact ⟨l, layoutOfCode_eq_some_iff.1 hl⟩

/-- The 4:2:0 layouts have the YFMT codes 0 to 2 (30_encoding R101). -/
theorem exists_sub420_code_iff (y : BitVec 3) : (∃ p : Sub420, (YuvLayout.sub420 p).code = y) ↔ y.toNat ≤ 2 := by
  constructor
  · rintro ⟨p, rfl⟩
    cases p <;> decide
  · intro h
    obtain ⟨p | p, rfl⟩ := (exists_layout_code_iff y).2 (by omega)
    · exact ⟨p, rfl⟩
    · cases p <;> exact absurd h (by decide)

/-! ### A word and its fields -/

/-- The command word with these fields and its reserved bits 0 (30_encoding R100). -/
def wordOfFields (flip aux dir : Bool) (rgbt : BitVec 2) (yfmt : BitVec 3) : Word :=
  yfmt.setWidth 32 ||| rgbt.setWidth 32 <<< 3 ||| Machine.bitWord dir <<< 5 ||| Machine.bitWord aux <<< 6
    ||| Machine.bitWord flip <<< 7

section
variable (flip aux dir : Bool) (rgbt : BitVec 2) (yfmt : BitVec 3)

theorem getLsbD_wordOfFields {j : Nat} (hj : j < 32) :
    (wordOfFields flip aux dir rgbt yfmt).getLsbD j = (yfmt.getLsbD j || (decide (3 ≤ j) && rgbt.getLsbD (j - 3))
      || (decide (j = 5) && dir) || (decide (j = 6) && aux) || (decide (j = 7) && flip)) := by
  simp only [wordOfFields, BitVec.getLsbD_or, BitVec.getLsbD_shiftLeft, BitVec.getLsbD_setWidth,
    Machine.getLsbD_bitWord]
  grind

@[simp] theorem fieldReserved_wordOfFields : fieldReserved (wordOfFields flip aux dir rgbt yfmt) = 0 := by
  refine BitVec.eq_of_getLsbD_eq fun i hi => ?_
  rw [fieldReserved, BitVec.getLsbD_extractLsb', getLsbD_wordOfFields _ _ _ _ _ (show 8 + i < 32 by omega),
    BitVec.getLsbD_of_ge yfmt _ (by omega), BitVec.getLsbD_of_ge rgbt _ (by omega)]
  grind

@[simp] theorem fieldFlip_wordOfFields : fieldFlip (wordOfFields flip aux dir rgbt yfmt) = flip :=
  (getLsbD_wordOfFields flip aux dir rgbt yfmt (by omega)).trans (by simp)

@[simp] theorem fieldAux_wordOfFields : fieldAux (wordOfFields flip aux dir rgbt yfmt) = aux :=
  (getLsbD_wordOfFields flip aux dir rgbt yfmt (by omega)).trans (by simp)

@[simp] theorem fieldDir_wordOfFields : fieldDir (wordOfFields flip aux dir rgbt yfmt) = dir :=
  (getLsbD_wordOfFields flip aux dir rgbt yfmt (by omega)).trans (by simp)

@[simp] theorem fieldRgbt_wordOfFields : fieldRgbt (wordOfFields flip aux dir rgbt yfmt) = rgbt := by
  refine BitVec.eq_of_getLsbD_eq fun i hi => ?_
  rw [fieldRgbt, BitVec.getLsbD_extractLsb', getLsbD_wordOfFields _ _ _ _ _ (show 3 + i < 32 by omega),
    BitVec.getLsbD_of_ge yfmt _ (by omega)]
  grind

@[simp] theorem fieldYfmt_wordOfFields : fieldYfmt (wordOfFields flip aux dir rgbt yfmt) = yfmt := by
  refine BitVec.eq_of_getLsbD_eq fun i hi => ?_
  rw [fieldYfmt, BitVec.getLsbD_extractLsb', getLsbD_wordOfFields _ _ _ _ _ (show 0 + i < 32 by omega)]
  grind

end

/-- A word whose reserved bits are 0 is made of its fields. -/
theorem wordOfFields_fields {w : Word} (h : fieldReserved w = 0) :
    wordOfFields (fieldFlip w) (fieldAux w) (fieldDir w) (fieldRgbt w) (fieldYfmt w) = w := by
  refine BitVec.eq_of_getLsbD_eq fun j hj => ?_
  rw [getLsbD_wordOfFields _ _ _ _ _ hj]
  by_cases h8 : j < 8
  · interval_cases j <;> simp [fieldFlip, fieldAux, fieldDir, fieldRgbt, fieldYfmt]
  · have hbit := congrArg (BitVec.getLsbD · (j - 8)) h
    simp only [fieldReserved, BitVec.getLsbD_extractLsb'] at hbit
    grind

/-- A word is made of certain fields exactly when it has them, and no reserved bit. -/
theorem wordOfFields_eq_iff {flip aux dir : Bool} {rgbt : BitVec 2} {yfmt : BitVec 3} {w : Word} :
    wordOfFields flip aux dir rgbt yfmt = w ↔ fieldReserved w = 0 ∧ fieldFlip w = flip ∧ fieldAux w = aux
      ∧ fieldDir w = dir ∧ rgbt = fieldRgbt w ∧ yfmt = fieldYfmt w := by
  constructor
  · rintro rfl
    simp
  · rintro ⟨h, rfl, rfl, rfl, rfl, rfl⟩
    exact wordOfFields_fields h

/-! ### The word of an operation -/

/-- The instruction that converts what the operation says. -/
def Operation.instr (op : Operation) : Instr :=
  match op with
  | .yuvToRgb l t => yuvToRgbInstr l t
  | .rgbToYuv t p => rgbToYuvInstr t p
  | .embed _ flip => .rgb8ToI420Embed flip
  | .extract _ => .nv12ToRgba8Extract

/-- The sample type of a data-channel operation is the one the parameters give it (00_scope R5). -/
def Operation.TypedBy (op : Operation) (c : Config) : Prop :=
  match op with
  | .embed t _ => t = c.embedType
  | .extract t => t = c.extractType
  | _ => True

/-- The command word with the fields of an operation (30_encoding R110). -/
def Operation.word (op : Operation) : Word :=
  match op with
  | .yuvToRgb l t => wordOfFields false false false t.field l.code
  | .rgbToYuv t p => wordOfFields false false true t.field (YuvLayout.sub420 p).code
  | .embed t flip => wordOfFields flip true true t.field (YuvLayout.sub420 .i420).code
  | .extract t => wordOfFields false true false t.field (YuvLayout.sub420 .nv12).code

theorem instr_operationOf (c : Config) (i : Instr) : (Machine.operationOf c i).instr = i := by
  cases i <;> rfl

theorem typedBy_operationOf (c : Config) (i : Instr) : (Machine.operationOf c i).TypedBy c := by
  cases i <;> trivial

/-- The encoder's table, row by row, puts the operation's fields together. -/
theorem encode_instr {c : Config} {op : Operation} (h : op.TypedBy c) : encode c op.instr = op.word := by
  cases op with
  | yuvToRgb l t => rcases l with p | p <;> cases p <;> cases t <;> rfl
  | rgbToYuv t p => cases p <;> cases t <;> rfl
  | embed t flip =>
    cases h
    simp only [Operation.instr, Operation.word]
    cases flip <;> simp only [encode] <;> cases c.embedType <;> rfl
  | extract t =>
    cases h
    simp only [Operation.instr, Operation.word, encode]
    cases c.extractType <;> rfl

/-- The decoder reads an operation back from the word made of its fields. -/
theorem decode_word {c : Config} {op : Operation} (h : op.TypedBy c) : decode c op.word = .ok op.instr := by
  cases op with
  | yuvToRgb l t => simp [decode, Operation.word, Operation.instr]
  | rgbToYuv t p => simp [decode, Operation.word, Operation.instr]
  | embed t flip =>
    cases h
    simp [decode, Operation.word, Operation.instr]
  | extract t =>
    cases h
    simp [decode, Operation.word, Operation.instr]

/-- The branches of the decoder that read an instruction, each of the word of an operation. -/
theorem exists_word_of_decode {c : Config} {w : Word} {i : Instr} (h : decode c w = .ok i) :
    ∃ op : Operation, op.TypedBy c ∧ op.instr = i ∧ op.word = w := by
  unfold decode at h
  split at h
  · cases h
  rename_i hres
  have hres : fieldReserved w = 0 := not_not.1 hres
  split at h
  · cases h
  rename_i l hl
  have hl := layoutOfCode_eq_some_iff.1 hl
  have ht := rgbTypeOfCode_eq_iff (b := fieldRgbt w).1 rfl
  split at h
  · rename_i ha hd hf
    cases h
    exact ⟨.yuvToRgb l _, trivial, rfl, wordOfFields_eq_iff.2 ⟨hres, hf, ha, hd, ht, hl⟩⟩
  · rename_i ha hd hf
    split at h
    · cases h
      exact ⟨.rgbToYuv _ _, trivial, rfl, wordOfFields_eq_iff.2 ⟨hres, hf, ha, hd, ht, hl⟩⟩
    · cases h
  · cases h
  · rename_i ha hd
    split at h
    · obtain ⟨rfl, hct⟩ := ‹_ ∧ _›
      cases h
      exact ⟨.embed _ _, hct, rfl, wordOfFields_eq_iff.2 ⟨hres, rfl, ha, hd, ht, hl⟩⟩
    · cases h
  · rename_i ha hd hf
    split at h
    · obtain ⟨rfl, hct⟩ := ‹_ ∧ _›
      cases h
      exact ⟨.extract _, hct, rfl, wordOfFields_eq_iff.2 ⟨hres, hf, ha, hd, ht, hl⟩⟩
    · cases h
  · cases h

theorem exists_decode_iff {c : Config} {w : Word} :
    (∃ i, decode c w = .ok i) ↔ ∃ op : Operation, op.TypedBy c ∧ op.word = w := by
  constructor
  · rintro ⟨i, h⟩
    obtain ⟨op, htyped, -, hw⟩ := exists_word_of_decode h
    exact ⟨op, htyped, hw⟩
  · rintro ⟨op, htyped, rfl⟩
    exact ⟨op.instr, decode_word htyped⟩

/-- Settles O2: the instruction is that of an operation, whose word the encoder writes and the decoder reads. -/
theorem decodeOfEncode : Obligations.DecodeOfEncode := by
  intro c i
  have h := typedBy_operationOf c i
  calc decode c (encode c i)
      = decode c (Machine.operationOf c i).word := by rw [← encode_instr h, instr_operationOf]
    _ = .ok i := by rw [decode_word h, instr_operationOf]

/-- Settles O3: a word that decodes is made of the fields of its operation, and so is the encoder's. -/
theorem encodeOfDecode : Obligations.EncodeOfDecode := by
  intro c w i h
  obtain ⟨op, htyped, rfl, rfl⟩ := exists_word_of_decode h
  exact encode_instr htyped

/-- Settles O4: the words that decode are those of the four shapes of operation. -/
theorem decodableWordsInFields : Obligations.DecodableWordsInFields := by
  intro c w
  rw [exists_decode_iff]
  constructor
  · rintro ⟨op, htyped, hw⟩
    cases op with
    | yuvToRgb l t =>
      obtain ⟨hres, hflip, haux, hdir, -, hy⟩ := wordOfFields_eq_iff.1 hw
      exact ⟨hres, .inl ⟨hdir, haux, hflip, (exists_layout_code_iff _).1 ⟨l, hy⟩⟩⟩
    | rgbToYuv t p =>
      obtain ⟨hres, hflip, haux, hdir, -, hy⟩ := wordOfFields_eq_iff.1 hw
      exact ⟨hres, .inr (.inl ⟨hdir, haux, hflip, (exists_sub420_code_iff _).1 ⟨p, hy⟩⟩)⟩
    | embed t flip =>
      cases htyped
      obtain ⟨hres, -, haux, hdir, ht, hy⟩ := wordOfFields_eq_iff.1 hw
      exact ⟨hres, .inr (.inr (.inl ⟨hdir, haux, hy.symm, rgbTypeOfCode_eq_iff.2 ht⟩))⟩
    | extract t =>
      cases htyped
      obtain ⟨hres, hflip, haux, hdir, ht, hy⟩ := wordOfFields_eq_iff.1 hw
      exact ⟨hres, .inr (.inr (.inr ⟨hdir, haux, hflip, hy.symm, rgbTypeOfCode_eq_iff.2 ht⟩))⟩
  · have ht := rgbTypeOfCode_eq_iff (b := fieldRgbt w).1 rfl
    rintro ⟨hres, ⟨hdir, haux, hflip, hy⟩ | ⟨hdir, haux, hflip, hy⟩ | ⟨hdir, haux, hy, htype⟩ |
      ⟨hdir, haux, hflip, hy, htype⟩⟩
    · obtain ⟨l, hl⟩ := (exists_layout_code_iff _).2 hy
      exact ⟨.yuvToRgb l _, trivial, wordOfFields_eq_iff.2 ⟨hres, hflip, haux, hdir, ht, hl⟩⟩
    · obtain ⟨p, hp⟩ := (exists_sub420_code_iff _).2 hy
      exact ⟨.rgbToYuv _ p, trivial, wordOfFields_eq_iff.2 ⟨hres, hflip, haux, hdir, ht, hp⟩⟩
    · exact ⟨.embed _ _, htype, wordOfFields_eq_iff.2 ⟨hres, rfl, haux, hdir, ht, hy.symm⟩⟩
    · exact ⟨.extract _, htype, wordOfFields_eq_iff.2 ⟨hres, hflip, haux, hdir, ht, hy.symm⟩⟩

/-- Settles O1: each of the words is the encoder's for its instruction. -/
theorem tableWordsDecode : Obligations.TableWordsDecode :=
  have h := decodeOfEncode Config.default
  ⟨h .i420ToRgb8, h .uyvyToRgbaf, h .yv12ToRgbf, h .rgba8ToNv12, h (.rgb8ToI420Embed true), h .nv12ToRgba8Extract⟩

end Sys2Proof

namespace Sys2Proof.Machine

/-! ### A loaded command -/

/-- A BUSY core's turn runs the instruction its latched word names. -/
theorem coreTurn_of_decode {s : State} {i : Instr} (hp : s.phase = .busy) (hd : decode s.cfg s.ctx.cmd = .ok i) :
    coreTurn s = exec i s := by
  simp [coreTurn, hp, hd]

theorem withFetchWord_of_word (s : State) (w : Word) : s.withFetchWord 32 w.toNat = loadCommand w s := by
  rw [State.withFetchWord, Nat.mod_eq_of_lt w.isLt, BitVec.ofNat_toNat, BitVec.setWidth_eq]

/-- The turn after a load is the core's, on what START leaves of an idle core with the word in CMD. -/
theorem step_loadCommand (w : Word) (s : State) :
    step (loadCommand w s) = coreTurn (start { s with cmd := w, phase := .idle }) :=
  step_of_input (s := loadCommand w s) rfl

/-- Settles O6: START latches the word the encoder writes, and the decoder reads the instruction back from it. -/
theorem loadedWordRunsNext : Obligations.LoadedWordRunsNext := by
  intro s i
  rw [withFetchWord_of_word, step_loadCommand, start_of_idle _ rfl]
  exact coreTurn_of_decode rfl (decodeOfEncode s.cfg i)

/-! ### WAIT -/

/-- A completion ends BUSY, sets DONE and takes no input. -/
theorem exec_completes {i : Instr} {s t : State} (h : exec i s = .next t) :
    t.phase = .idle ∧ t.done = true ∧ t.inputs = s.inputs := by
  rw [exec_eq_runOperation] at h
  rcases runOperation_cases h with ⟨-, rfl⟩ | ⟨-, -, rfl⟩ | ⟨-, -, -, rfl⟩ | ⟨-, -, rfl⟩ | ⟨-, -, rfl⟩ <;>
    simp

theorem coreTurn_completes {s t : State} (hp : s.phase = .busy) (h : coreTurn s = .next t) :
    t.phase = .idle ∧ t.done = true ∧ t.inputs = s.inputs := by
  rcases coreTurn_cases s with ⟨hidle, -⟩ | ⟨i, -, -, hc⟩ | ⟨r, -, -, hc⟩
  · simp [hp] at hidle
  · exact exec_completes (hc ▸ h)
  · cases hc.symm.trans h
    simp

theorem getLsbD_statusWord_done (s : State) : (statusWord s).getLsbD 1 = s.done :=
  (getLsbD_statusWord s 1 (by omega)).trans (by simp)

/-- The mask of WAIT picks DONE out of a STATUS word (30_encoding R121). -/
theorem statusWord_and_two (s : State) : statusWord s &&& 2 = if s.done then 2 else 0 := by
  rw [← getLsbD_statusWord_done]
  exact BitVec.and_twoPow (statusWord s) 1

/-- A POLL of STATUS for DONE ends where DONE is set, and else is next again after the core's turn (30_encoding R120). -/
theorem poll_status_done {s : State} (hb : s.cfg.base.toNat % 256 = 0) :
    poll (regAddr s.cfg .status) 2 2 s = if s.done then .next { s with rdata := statusWord s }
      else coreTurn { s with rdata := statusWord s, inputs := wait s.cfg ++ s.inputs } := by
  have haddr := regAddr_toNat hb .status
  have hread : readAt s (regAddr s.cfg .status) = statusWord s := readAt_eq_readReg haddr
  rw [poll, if_pos (fits_of_register hb haddr), hread, statusWord_and_two]
  cases s.done <;> rfl

section
variable {s : State} {rest : List Input}

theorem step_wait_of_done (hd : s.done = true) (hb : s.cfg.base.toNat % 256 = 0)
    (hi : s.inputs = wait s.cfg ++ rest) : step s = .next { s with inputs := rest, rdata := statusWord s } :=
  calc step s = poll (regAddr s.cfg .status) 2 2 { s with inputs := rest } := step_of_input hi
    _ = _ := (poll_status_done (s := { s with inputs := rest }) hb).trans (if_pos hd)

theorem step_wait_of_not_done (hd : s.done = false) (hb : s.cfg.base.toNat % 256 = 0)
    (hi : s.inputs = wait s.cfg ++ rest) : step s = coreTurn { s with rdata := statusWord s } :=
  calc step s = poll (regAddr s.cfg .status) 2 2 { s with inputs := rest } := step_of_input hi
    _ = coreTurn { s with rdata := statusWord s, inputs := wait s.cfg ++ rest } :=
        (poll_status_done (s := { s with inputs := rest }) hb).trans (if_neg (Bool.eq_false_iff.1 hd))
    _ = coreTurn { s with rdata := statusWord s } := by rw [← hi]

end

/-- Settles O41: the first read finds DONE clear and gives the core its turn, which completes the operation; the second
finds DONE set. -/
theorem waitEnds : Obligations.WaitEnds := by
  intro s rest hp hd hb hnone hi
  obtain ⟨t, ht⟩ := (coreTurn_next_or_refused { s with rdata := statusWord s }).resolve_right fun h => h.1 hnone
  have hcfg : t.cfg = s.cfg := coreTurn_keepsCfg { s with rdata := statusWord s } t ht
  obtain ⟨hidle, hdone, hin⟩ := coreTurn_completes (s := { s with rdata := statusWord s }) hp ht
  have hfirst : step s = .next t := (step_wait_of_not_done hd hb hi).trans ht
  have hsecond := step_wait_of_done (rest := rest) hdone (hcfg.symm ▸ hb) (hcfg.symm ▸ hin.trans hi)
  exact ⟨t, _, hfirst, hidle, hin, hsecond, rfl, (getLsbD_statusWord_done t).trans hdone, rfl⟩

end Sys2Proof.Machine

/-! PROOFS. The course of an operation (40_transform R131 to R137): what each completion changes and keeps, which check
turns an operation away, and that the core's turn completes. -/

namespace Sys2Proof.Machine

/-! ### The completions, each said once -/

section
variable {s : State} {rs : List Region}

/-- An operation turned away is a completion with count 0 that frees what other agents stored to (40_transform R136,
20_memory R93). -/
theorem turnAway_turnedAway (k : StatusCode) (rs : List Region) (s : State) :
    TurnedAway k rs s (turnAway (Config.freeByte s.draws) k rs s) := by
  have hcells {p : Host.Cell} (hp : p ∈ storedCells (Config.freeByte s.draws) rs s) :
      StoredTo rs s p.1 ∧ p.2 = Config.freeByte s.draws p.1 := by
    obtain ⟨htouched, hin, hspace, hfree⟩ := mem_storedCells.1 hp
    exact ⟨⟨htouched, hin, hspace⟩, hfree⟩
  refine ⟨?_, fun hnone => ?_, fun a ha => ?_, fun hm a ⟨htouched, hin, hspace⟩ => ?_⟩
  · cases k <;> rfl
  · have hnil : storedCells (Config.freeByte s.draws) rs s = [] :=
      List.eq_nil_iff_forall_not_mem.2 fun p hp => hnone p.1 (hcells hp).1
    rw [turnAway_mem, hnil]
    rfl
  · exact Memory.read_writeAll_other _ _ _ fun p hp hpa => ha (hpa ▸ (hcells hp).1)
  · exact read_writeAll_free hm (fun p hp => (hcells hp).2)
      (List.mem_map.2 ⟨(a, Config.freeByte s.draws a), mem_storedCells.2 ⟨htouched, hin, hspace, rfl⟩, rfl⟩)

theorem turnedAway_keptOutside {k : StatusCode} {t : State} (h : TurnedAway k rs s t) : KeptOutside rs s t := by
  obtain ⟨-, -, hkept, -⟩ := h
  refine fun a ha => hkept a fun ⟨_, hin, _⟩ => ?_
  rw [ha] at hin
  cases hin

theorem failDevice_completed (free : Nat → Byte) (op : Operation) :
    Completed .deviceFailure 0 s (failDevice free op s) := rfl

theorem failDevice_keptOutside (free : Nat → Byte) (op : Operation) :
    KeptOutside (writeRegions op s.ctx) s (failDevice free op s) := by
  intro a ha
  refine Memory.read_writeAll_other _ _ _ fun p hp hpa => ?_
  have hin := (mem_freeCells.1 hp).1
  rw [hpa, ha] at hin
  cases hin

/-- A device failure leaves the free value at every byte of the written regions (40_transform R136). -/
theorem read_failDevice {free : Nat → Byte} {op : Operation} (hm : s.mem.wf = true) {a : Nat}
    (ha : inRegions (writeRegions op s.ctx) a = true) : (failDevice free op s).mem.read a = free a :=
  read_writeAll_free hm (fun _ hp => (mem_freeCells.1 hp).2)
    (List.mem_map.2 ⟨(a, free a), mem_freeCells.2 ⟨ha, rfl⟩, rfl⟩)

end

/-- Every next state of an instruction is a completion that writes inside the operation's regions: turned away with an
early code, failed, or succeeded. -/
theorem exec_cases {i : Instr} {s t : State} (h : exec i s = .next t) :
    ((t.code = .unsupported ∨ t.code = .invalidArgument ∨ t.code = .capacityExceeded)
        ∧ TurnedAway t.code (writeRegions (operationOf s.cfg i) s.ctx) s t)
    ∨ (t.code = .deviceFailure ∧ Completed .deviceFailure 0 s t
        ∧ KeptOutside (writeRegions (operationOf s.cfg i) s.ctx) s t)
    ∨ (t.code = .success ∧ Completed .success (operationCount s.cfg (operationOf s.cfg i) s.ctx) s t
        ∧ KeptOutside (writeRegions (operationOf s.cfg i) s.ctx) s t) := by
  rw [exec_eq_runOperation] at h
  rcases runOperation_cases h with ⟨-, rfl⟩ | ⟨-, -, rfl⟩ | ⟨-, -, -, rfl⟩ | ⟨-, -, rfl⟩ | ⟨hx, -, rfl⟩
  · exact .inl ⟨.inl rfl, turnAway_turnedAway ..⟩
  · exact .inl ⟨.inr (.inl rfl), turnAway_turnedAway ..⟩
  · exact .inl ⟨.inr (.inr rfl), turnAway_turnedAway ..⟩
  · exact .inr (.inl ⟨rfl, failDevice_completed .., failDevice_keptOutside _ _⟩)
  · exact .inr (.inr ⟨rfl, succeed_completed, succeed_keptOutside (even_width_of_executes hx)⟩)

/-- A completion changes nothing but the status, memory and the model's record of the run. -/
theorem frame_of_completed {k : StatusCode} {n : Nat} {s t : State} (h : Completed k n s t) :
    t = { s with code := t.code, auxCount := t.auxCount, phase := .idle, done := true, touched := []
                 deviceFault := false, mem := t.mem, draws := t.draws } := by
  rw [Completed] at h
  rw [h]

/-- Settles O23: every next state is a completion that keeps memory outside the written regions. -/
theorem execFrame : Obligations.ExecFrame := by
  intro i s t h
  rcases exec_cases h with ⟨-, htaway⟩ | ⟨-, hc, hkept⟩ | ⟨-, hc, hkept⟩
  · exact ⟨frame_of_completed htaway.1, turnedAway_keptOutside htaway⟩
  · exact ⟨frame_of_completed hc, hkept⟩
  · exact ⟨frame_of_completed hc, hkept⟩

/-- Settles O11: the early codes are those of the operations turned away. -/
theorem earlyErrorsTouchNoMemory : Obligations.EarlyErrorsTouchNoMemory := by
  intro i s t h hcode
  rcases exec_cases h with ⟨-, htaway⟩ | ⟨hk, -⟩ | ⟨hk, -⟩
  · exact htaway
  · simp [hk] at hcode
  · simp [hk] at hcode

/-- Settles O12: the device failure frees the written regions byte by byte. -/
theorem deviceFailureFreesOutput : Obligations.DeviceFailureFreesOutput := by
  intro i s hx hf hm
  exact ⟨_, (exec_eq_runOperation i s).trans (runOperation_fails hx hf), failDevice_completed ..,
    failDevice_keptOutside _ _, fun a ha => read_failDevice hm ha⟩

/-! ### The checks, in their order -/

/-- An instruction outside SUPPORTED is turned away with UNSUPPORTED (40_transform R132). -/
theorem exec_of_unsupported {i : Instr} {s : State} (h : i ∉ s.cfg.supported) :
    exec i s
      = .next (turnAway (Config.freeByte s.draws) .unsupported (writeRegions (operationOf s.cfg i) s.ctx) s) := by
  rw [exec_eq_runOperation, runOperation, if_pos h]

/-- A supported instruction that fails an argument check is turned away with INVALID_ARGUMENT (40_transform R133). -/
theorem exec_of_invalidArgument {i : Instr} {s : State} (hsup : i ∈ s.cfg.supported)
    (h : invalidArgument s.cfg (operationOf s.cfg i) s.ctx = true) :
    exec i s
      = .next (turnAway (Config.freeByte s.draws) .invalidArgument (writeRegions (operationOf s.cfg i) s.ctx) s) := by
  rw [exec_eq_runOperation, runOperation, if_neg (not_not.2 hsup), if_pos h]

@[simp] theorem srcRegion_base (op : Operation) (x : Ctx) : (srcRegion op x).base = x.src.toNat := by
  cases op <;> rfl

@[simp] theorem dstRegion_base (op : Operation) (x : Ctx) : (dstRegion op x).base = x.dst.toNat := by
  cases op <;> rfl

theorem auxRegion_of_usesAux {op : Operation} (h : usesAux op = true) (x : Ctx) :
    auxRegion op x = { base := x.aux.toNat, size := x.auxlen.toNat } :=
  if_pos h

/-- The items (a) to (g) of 40_transform R133, in numbers. -/
theorem invalidArgument_iff {c : Config} {op : Operation} {x : Ctx} : invalidArgument c op x = true ↔
    x.src = 0 ∨ x.dst = 0 ∨ (usesAux op = true ∧ x.aux = 0) ∨ x.w = 0 ∨ x.h = 0 ∨ x.w.toNat % 2 = 1 ∨
      x.h.toNat % 2 = 1 ∨ 2 ^ c.addrW ≤ x.src.toNat ∨ 2 ^ c.addrW ≤ x.dst.toNat ∨
      (usesAux op = true ∧ 2 ^ c.addrW ≤ x.aux.toNat) ∨
      (bytesPerChannel (rgbBuffer op x).1 = 4 ∧ (rgbBuffer op x).2 % 4 ≠ 0) ∨
      2 ^ c.addrW < x.src.toNat + (srcRegion op x).size ∨ 2 ^ c.addrW < x.dst.toNat + (dstRegion op x).size ∨
      (usesAux op = true ∧ 2 ^ c.addrW < x.aux.toNat + x.auxlen.toNat) := by
  have haux : (usesAux op = true ∧ 2 ^ c.addrW < (auxRegion op x).base + (auxRegion op x).size) ↔
      (usesAux op = true ∧ 2 ^ c.addrW < x.aux.toNat + x.auxlen.toNat) :=
    and_congr_right fun h => by rw [auxRegion_of_usesAux h]
  have hW : x.W = 0 ↔ x.w = 0 := (BitVec.toNat_eq (y := 0)).symm
  have hH : x.H = 0 ↔ x.h = 0 := (BitVec.toNat_eq (y := 0)).symm
  simp only [invalidArgument, nullPointer, nullAux, zeroDimension, oddDimension, addressTooWide, highBits,
    misalignedFloat, bufferPastTop, pastTop, Bool.or_eq_true, Bool.and_eq_true, decide_eq_true_eq, srcRegion_base,
    dstRegion_base, haux, hW, hH, or_assoc]
  rfl

/-- Settles O8: the items are the argument checks, and an operation that fails one is turned away. -/
theorem invalidArgumentFails : Obligations.InvalidArgumentFails := by
  intro i s hsup hitem
  exact ⟨_, exec_of_invalidArgument hsup (invalidArgument_iff.2 hitem), turnAway_turnedAway ..⟩

/-! ### The core's turn -/

/-- A word is an instruction's exactly when it decodes as it (30_encoding R103). -/
theorem encode_eq_iff_decode {c : Config} {i : Instr} {w : Word} : encode c i = w ↔ decode c w = .ok i := by
  constructor
  · rintro rfl
    exact decodeOfEncode c i
  · exact encodeOfDecode c w i

/-- Settles O7: the latched word decodes as an instruction outside SUPPORTED, or as none. -/
theorem illegalWordCompletesUnsupported : Obligations.IllegalWordCompletesUnsupported := by
  intro s hp hi
  refine ⟨fun hnone => ?_, fun i _ hw => step_of_decode hi hp (encode_eq_iff_decode.1 hw)⟩
  rw [step_of_no_inputs hi]
  rcases coreTurn_cases s with ⟨hidle, -⟩ | ⟨i, -, hd, hturn⟩ | ⟨e, -, -, hturn⟩
  · simp [hp] at hidle
  · have hsup : i ∉ s.cfg.supported := fun hsup => hnone i hsup (encode_eq_iff_decode.2 hd)
    rw [contextRegions_of_decode hd]
    exact ⟨_, hturn.trans (exec_of_unsupported hsup), turnAway_turnedAway ..⟩
  · exact ⟨_, hturn, turnAway_turnedAway ..⟩

/-- Settles O5: the core's turn, with no input left or as the next input, runs what the latched word decodes to. -/
theorem stepRunsTheLatchedInstruction : Obligations.StepRunsTheLatchedInstruction := by
  intro s i hp hd
  refine ⟨fun hi => step_of_decode hi hp hd, fun rest hi => ?_⟩
  rw [step_of_input hi]
  exact coreTurn_of_decode (s := { s with inputs := rest }) hp hd

/-- Settles O40: with no side-effect addresses the core's turn has a next state, and that is a completion. -/
theorem busyCompletes : Obligations.BusyCompletes := by
  intro s hp hi hnone
  obtain ⟨t, ht⟩ := (coreTurn_next_or_refused s).resolve_right fun h => h.1 hnone
  obtain ⟨hidle, hdone, -⟩ := coreTurn_completes hp ht
  exact ⟨t, (step_of_no_inputs hi).trans ht, hidle, hdone⟩

end Sys2Proof.Machine

/-! PROOFS. What an operation that executes undisturbed leaves at each address it writes, and the samples that a NaN or
an infinity frees (40_transform R137, R158). -/

namespace Sys2Proof.Machine

/-! ### An undisturbed operation writes each address once -/

theorem not_inRegion_of_not_regionsOverlap {r q : Region} (h : regionsOverlap r q = false) {a : Nat}
    (hr : inRegion r a = true) : inRegion q a = false := by
  simp only [regionsOverlap, inRegion, Bool.and_eq_false_iff, Bool.and_eq_true, decide_eq_false_iff_not,
    decide_eq_true_eq] at *
  omega

section
variable {op : Operation} {s : State} {free : Nat → Byte}

theorem selfOverlap_of_undisturbed (h : Undisturbed op s) : selfOverlap op s.ctx = false := by
  rw [Undisturbed, outputFree, Bool.or_eq_false_iff] at h
  exact h.1

/-- The auxiliary bytes that an operation writes lie outside its destination region, where no overlap of R94 frees the
output. -/
theorem not_aux_written_of_mem_dst (h : Undisturbed op s) {a : Nat} (hdst : inRegion (dstRegion op s.ctx) a = true) :
    ¬ (s.ctx.aux.toNat ≤ a ∧ a < s.ctx.aux.toNat + auxBytesWritten s.cfg op s.ctx) := by
  have hself := selfOverlap_of_undisturbed h
  cases op with
  | extract t =>
    simp only [selfOverlap, Bool.or_eq_false_iff] at hself
    obtain ⟨⟨-, hoverlap⟩, -⟩ := hself
    have hout := not_inRegion_of_not_regionsOverlap hoverlap hdst
    have hlen := extractBytes_le s.cfg s.ctx
    simp only [inRegion, auxRegion_of_usesAux (op := .extract t) rfl, Bool.and_eq_false_iff,
      decide_eq_false_iff_not] at hout
    simp only [auxBytesWritten]
    rw [Ctx.auxBytes] at hlen
    omega
  | _ =>
    simp only [auxBytesWritten]
    omega

theorem nodup_addresses_of_undisturbed (hW : s.ctx.W % 2 = 0) (h : Undisturbed op s) :
    (addresses (operationCells s.cfg op s.ctx s.mem free)).Nodup := by
  refine (addresses_operationCells_perm s.cfg op s.mem free hW).nodup_iff.2 ?_
  refine List.nodup_append'.2 ⟨List.nodup_range', List.nodup_range', fun a hdst haux => ?_⟩
  rw [List.mem_range'_1] at hdst haux
  exact not_aux_written_of_mem_dst h (by simpa [inRegion] using hdst) haux

/-- An undisturbed operation leaves each value it writes at its address. -/
theorem read_succeed_of_mem (hW : s.ctx.W % 2 = 0) (hm : s.mem.wf = true) (h : Undisturbed op s) {a : Nat} {v : Byte}
    (hcell : (a, v) ∈ operationCells s.cfg op s.ctx s.mem free) : (succeed free op s).mem.read a = v := by
  rw [succeed_mem, outputCells_of_undisturbed h]
  refine Memory.read_writeAll_mem hm _ a v hcell fun p hp hpa => ?_
  have hsame : p = (a, v) := List.inj_on_of_nodup_map (nodup_addresses_of_undisturbed hW h) hp hcell hpa
  rw [hsame]

end

/-- An instruction that is ready succeeds, and each value its operation writes stands at its address. -/
theorem exec_of_ready {i : Instr} {op : Operation} {s : State} (hop : operationOf s.cfg i = op) (h : Ready i op s) :
    ∃ t, exec i s = .next t ∧ ∀ {a : Nat} {v : Byte},
      (a, v) ∈ operationCells s.cfg op s.ctx s.mem (Config.freeByte s.draws) → t.mem.read a = v := by
  subst hop
  obtain ⟨hx, hf, hu, hm⟩ := h
  exact ⟨_, exec_succeeds hx hf, read_succeed_of_mem (even_width_of_executes hx) hm hu⟩

/-! ### The samples that a NaN or an infinity frees -/

section
variable {c : Config} {t : RgbType} {x : Ctx} {m : Memory}

/-- The Y sample of a pixel with a non-finite channel is free (40_transform R158). -/
theorem mem_lumaCells_of_nonfinite (free : Nat → Byte) {px py : Nat} (hx : px < x.W) (hy : py < x.H)
    (h : encodePixel c t x m x.src.toNat px py = none) :
    (addrY x x.dst.toNat px py, free (addrY x x.dst.toNat px py)) ∈ lumaCells c t x m free := by
  refine List.mem_map.2 ⟨(px, py), mem_raster.2 ⟨hx, hy⟩, ?_⟩
  simp [lumaSample, h]

/-- A block has its chroma samples from its four pixels together. -/
theorem chromaBlock_of_nonfinite {b bX bY dx dy : Nat} (hdx : dx < 2) (hdy : dy < 2)
    (h : encodePixel c t x m b (2 * bX + dx) (2 * bY + dy) = none) : chromaBlock c t x m b bX bY = none := by
  unfold chromaBlock
  split
  · interval_cases dx <;> interval_cases dy <;> simp_all
  · rfl

/-- U and V of a block with a non-finite pixel are free (40_transform R158). -/
theorem chromaSample_of_nonfinite (l : Sub420) (free : Nat → Byte) {b : Nat × Nat} {dx dy : Nat} (hdx : dx < 2)
    (hdy : dy < 2) (h : encodePixel c t x m x.src.toNat (2 * b.1 + dx) (2 * b.2 + dy) = none) :
    chromaSample c t l x m free b = (free (addrU l x x.dst.toNat b.1 b.2), free (addrV l x x.dst.toNat b.1 b.2)) := by
  simp [chromaSample, chromaBlock_of_nonfinite hdx hdy h]

theorem mem_rgbToYuvCells_chroma (l : Sub420) (free : Nat → Byte) {bX bY : Nat} (hx : bX < x.CW) (hy : bY < x.CH) :
    (addrU l x x.dst.toNat bX bY, (chromaSample c t l x m free (bX, bY)).1) ∈ rgbToYuvCells c t l x m free ∧
      (addrV l x x.dst.toNat bX bY, (chromaSample c t l x m free (bX, bY)).2) ∈ rgbToYuvCells c t l x m free := by
  have hblock : (bX, bY) ∈ x.blocks := mem_raster.2 ⟨hx, hy⟩
  exact ⟨List.mem_append_right _ (List.mem_flatMap.2 ⟨_, hblock, by simp⟩),
    List.mem_append_right _ (List.mem_flatMap.2 ⟨_, hblock, by simp⟩)⟩

theorem mem_embedCells_chroma (flip : Bool) (free : Nat → Byte) {k : Nat} (hk : k < x.NC) :
    (addrU .i420 x x.dst.toNat (place x k flip).1 (place x k flip).2,
        embeddedU c x m k (chromaSample c t .i420 x m free (place x k flip)).1) ∈ embedCells c t flip x m free ∧
      (addrV .i420 x x.dst.toNat (place x k flip).1 (place x k flip).2,
        (chromaSample c t .i420 x m free (place x k flip)).2) ∈ embedCells c t flip x m free :=
  ⟨List.mem_append_right _ (List.mem_flatMap.2 ⟨k, List.mem_range.2 hk, by simp⟩),
    List.mem_append_right _ (List.mem_flatMap.2 ⟨k, List.mem_range.2 hk, by simp⟩)⟩

end

theorem operationOf_rgbToYuvRow (c : Config) {e : Instr × RgbType × Sub420} (he : e ∈ rgbToYuvRows) :
    operationOf c e.1 = .rgbToYuv e.2.1 e.2.2 := by
  fin_cases he <;> rfl

/-- Settles O19: a conversion writes every sample once, and those of a non-finite pixel or block are free. -/
theorem nonFiniteInputLeavesFreeSamples : Obligations.NonFiniteInputLeavesFreeSamples := by
  intro e he s hready
  obtain ⟨t, hexec, hread⟩ := exec_of_ready (operationOf_rgbToYuvRow s.cfg he) hready
  refine ⟨t, hexec, fun px py hx hy hnone => ?_, fun bX bY dx dy hbX hbY hdx hdy hnone => ?_⟩
  · exact hread (List.mem_append_left _ (mem_lumaCells_of_nonfinite _ hx hy hnone))
  · obtain ⟨hU, hV⟩ := mem_rgbToYuvCells_chroma (c := s.cfg) (t := e.2.1) (m := s.mem) e.2.2
      (Config.freeByte s.draws) hbX hbY
    rw [chromaSample_of_nonfinite (b := (bX, bY)) _ _ hdx hdy hnone] at hU hV
    exact ⟨hread hU, hread hV⟩

/-- Settles O55: an embed writes every sample once, and codes U over the free natural sample. -/
theorem nonFiniteEmbedFreesNaturalSamples : Obligations.NonFiniteEmbedFreesNaturalSamples := by
  intro flip s hready
  obtain ⟨t, hexec, hread⟩ := exec_of_ready rfl hready
  refine ⟨t, hexec, fun px py hx hy hnone => ?_, fun k dx dy hk hdx hdy hnone => ?_⟩
  · exact hread (List.mem_append_left _ (mem_lumaCells_of_nonfinite _ hx hy hnone))
  · obtain ⟨hU, hV⟩ := mem_embedCells_chroma (c := s.cfg) (t := s.cfg.embedType) (m := s.mem) flip
      (Config.freeByte s.draws) hk
    rw [chromaSample_of_nonfinite (b := place s.ctx k flip) _ _ hdx hdy hnone] at hU hV
    exact ⟨hread hV, hread hU⟩

end Sys2Proof.Machine

/-! PROOFS. The quantisers (40_transform R154, R155): Q8 as a clamped integer, and RNE32 as the nearest binary32
value. -/

namespace Sys2Proof.Machine

/-! ### Q8 -/

/-- Settles O43: a clamped integer fits a byte. -/
theorem quantiserRule : Obligations.QuantiserRule := by
  intro q
  rw [q8, BitVec.toNat_ofInt]
  omega

/-! ### Powers of two as the model writes them -/

/-- A power of two with a negative exponent in the denominator. -/
theorem zpow_two_eq (e : ℤ) : (2 : ℚ) ^ e = (2 : ℚ) ^ e.toNat / (2 : ℚ) ^ (-e).toNat := by
  rcases Int.le_total 0 e with h | h
  · obtain ⟨k, rfl⟩ := Int.eq_ofNat_of_zero_le h
    simp
  · obtain ⟨k, rfl⟩ := Int.exists_eq_neg_ofNat h
    simp

/-- A ratio of naturals against a power of two, without division. -/
theorem ratio_lt_zpow_iff {n d : Nat} (hd : 0 < d) (e : ℤ) :
    (n / d : ℚ) < 2 ^ e ↔ n * 2 ^ (-e).toNat < d * 2 ^ e.toNat := by
  have hd' : (0 : ℚ) < d := by exact_mod_cast hd
  rw [zpow_two_eq, div_lt_div_iff₀ hd' (by positivity), mul_comm ((2 : ℚ) ^ _)]
  exact_mod_cast Iff.rfl

/-- A ratio with the power of two multiplied into its numerator or its denominator. -/
theorem scaled_ratio_eq (n d : Nat) (e : ℤ) :
    ((n * 2 ^ e.toNat : ℕ) : ℚ) / (d * 2 ^ (-e).toNat : ℕ) = n / d * 2 ^ e := by
  rw [zpow_two_eq, div_mul_div_comm]
  norm_cast

theorem log2_bounds {n : Nat} (hn : 0 < n) :
    (2 : ℚ) ^ (Nat.log2 n : ℤ) ≤ n ∧ (n : ℚ) < 2 ^ ((Nat.log2 n : ℤ) + 1) := by
  constructor
  · exact_mod_cast Nat.log2_self_le hn.ne'
  · exact_mod_cast Nat.lt_log2_self (n := n)

/-- The model's ⌊log2⌋ of a ratio bounds it from both sides. -/
theorem log2Ratio_spec {n d : Nat} (hn : 0 < n) (hd : 0 < d) :
    (2 : ℚ) ^ log2Ratio n d ≤ n / d ∧ (n / d : ℚ) < 2 ^ (log2Ratio n d + 1) := by
  have hd' : (0 : ℚ) < d := by exact_mod_cast hd
  obtain ⟨hnlo, hnhi⟩ := log2_bounds hn
  obtain ⟨hdlo, hdhi⟩ := log2_bounds hd
  have hlo : (2 : ℚ) ^ ((Nat.log2 n : ℤ) - Nat.log2 d - 1) ≤ n / d := by
    rw [le_div_iff₀ hd']
    calc (2 : ℚ) ^ ((Nat.log2 n : ℤ) - Nat.log2 d - 1) * d
        ≤ 2 ^ ((Nat.log2 n : ℤ) - Nat.log2 d - 1) * 2 ^ ((Nat.log2 d : ℤ) + 1) := by gcongr
      _ = 2 ^ (Nat.log2 n : ℤ) := by
          rw [← zpow_add₀ two_ne_zero]
          congr 1
          omega
      _ ≤ n := hnlo
  have hhi : (n / d : ℚ) < 2 ^ ((Nat.log2 n : ℤ) - Nat.log2 d + 1) := by
    rw [div_lt_iff₀ hd']
    calc (n : ℚ) < 2 ^ ((Nat.log2 n : ℤ) + 1) := hnhi
      _ = 2 ^ ((Nat.log2 n : ℤ) - Nat.log2 d + 1) * 2 ^ (Nat.log2 d : ℤ) := by
          rw [← zpow_add₀ two_ne_zero]
          congr 1
          omega
      _ ≤ 2 ^ ((Nat.log2 n : ℤ) - Nat.log2 d + 1) * d := by gcongr
  simp only [log2Ratio]
  split
  · rename_i h
    rw [← ratio_lt_zpow_iff hd] at h
    exact ⟨hlo, by simpa using h⟩
  · rename_i h
    rw [← ratio_lt_zpow_iff hd, not_lt] at h
    exact ⟨h, hhi⟩

/-! ### Rounding a ratio to an integer -/

/-- The rounded integer lies within a half of the ratio, and is even when it lies a half away. -/
theorem roundHalfEven_spec (n : Nat) {d : Nat} (hd : 0 < d) :
    |(roundHalfEven n d : ℚ) - n / d| ≤ 1 / 2 ∧
      (|(roundHalfEven n d : ℚ) - n / d| = 1 / 2 → roundHalfEven n d % 2 = 0) := by
  have hd' : (0 : ℚ) < d := by exact_mod_cast hd
  have hratio : (n / d : ℚ) = (n / d : ℕ) + (n % d : ℕ) / d := by
    rw [add_div' _ _ _ hd'.ne', div_left_inj' hd'.ne']
    exact_mod_cast (Nat.div_add_mod' n d).symm
  have hlt : ((n % d : ℕ) : ℚ) / d < 1 := (div_lt_one hd').2 (by exact_mod_cast Nat.mod_lt n hd)
  have hhalf : (1 / 2 : ℚ) ≤ (n % d : ℕ) / d ↔ d ≤ 2 * (n % d) := by
    rw [div_le_div_iff₀ two_pos hd', one_mul, mul_comm]
    exact_mod_cast Iff.rfl
  have hhalf' : ((n % d : ℕ) / d : ℚ) ≤ 1 / 2 ↔ 2 * (n % d) ≤ d := by
    rw [div_le_div_iff₀ hd' two_pos, one_mul, mul_comm]
    exact_mod_cast Iff.rfl
  rw [hratio, roundHalfEven]
  split
  · rename_i hup
    have hge := hhalf.2 (by omega)
    rw [show ((n / d + 1 : ℕ) : ℚ) - ((n / d : ℕ) + (n % d : ℕ) / d) = 1 - (n % d : ℕ) / d by push_cast; ring,
      abs_of_pos (by linarith)]
    refine ⟨by linarith, fun htie => ?_⟩
    have hle := hhalf'.1 (by linarith)
    omega
  · rename_i hdown
    have hle := hhalf'.2 (by omega)
    rw [sub_add_cancel_left, abs_neg, abs_of_nonneg (by positivity)]
    refine ⟨hle, fun htie => ?_⟩
    have hge := hhalf.1 htie.ge
    omega

/-- An integer within a half of `r` is nearest to it, and only at a half can another be as near. -/
theorem nearest_of_abs_sub_le_half {m : ℤ} {r : ℚ} (h : |m - r| ≤ 1 / 2) (j : ℤ) :
    |m - r| ≤ |j - r| ∧ (|j - r| = |m - r| → j ≠ m → |m - r| = 1 / 2) := by
  have hgap (hne : j ≠ m) : 1 ≤ |j - r| + |m - r| := by
    have hint : (1 : ℚ) ≤ |((j - m : ℤ) : ℚ)| := by exact_mod_cast Int.one_le_abs (sub_ne_zero.2 hne)
    calc (1 : ℚ) ≤ |((j - m : ℤ) : ℚ)| := hint
      _ = |(j - r) - (m - r)| := by push_cast; ring_nf
      _ ≤ |j - r| + |m - r| := abs_sub _ _
  by_cases hne : j = m
  · exact ⟨by rw [hne], fun _ h' => absurd hne h'⟩
  · have := hgap hne
    exact ⟨by linarith, fun heq _ => by linarith⟩

/-! ### Binary32 values -/

/-- The unit of a significand whose exponent field is `E + 1`. The subnormals have that of field 1, `ulp 0`. -/
def ulp (E : Nat) : ℚ := 2 ^ ((E : ℤ) - 149)

theorem ulp_pos (E : Nat) : 0 < ulp E := by
  unfold ulp
  positivity

theorem ulp_add (E k : Nat) : ulp (E + k) = 2 ^ k * ulp E := by
  rw [ulp, ulp, ← zpow_natCast, ← zpow_add₀ two_ne_zero]
  congr 1
  push_cast
  ring

/-- A significand times a smaller unit lies below the normal values of a larger one. -/
theorem mul_ulp_lt_of_lt {E F : Nat} (h : F < E) {z : ℤ} (hz : z < 2 ^ 24) : z * ulp F < 2 ^ 23 * ulp E := by
  obtain ⟨k, rfl⟩ := Nat.exists_eq_add_of_lt h
  have hF := ulp_pos F
  have hz' : (z : ℚ) < 2 ^ 24 := by exact_mod_cast hz
  calc (z : ℚ) * ulp F < 2 ^ 24 * ulp F := by gcongr
    _ = 2 ^ 23 * (2 ^ 1 * ulp F) := by ring
    _ ≤ 2 ^ 23 * (2 ^ (k + 1) * ulp F) := by gcongr <;> norm_num
    _ = 2 ^ 23 * ulp (F + k + 1) := by rw [Nat.add_assoc, ulp_add]

/-- The magnitude of a binary32 value from its exponent and fraction fields (IEEE 754, log 17). -/
def binary32Magnitude (e frac : Nat) : ℚ := if e = 0 then frac * ulp 0 else (2 ^ 23 + frac : ℕ) * ulp (e - 1)

/-- The model's three ranges of the exponent field are one formula. -/
theorem binary32Magnitude_eq_ite (e frac : Nat) :
    (if e = 0 then (frac : ℚ) / ((2 ^ 149 : Nat) : ℚ)
      else if e < 150 then ((2 ^ 23 + frac : Nat) : ℚ) / ((2 ^ (150 - e) : Nat) : ℚ)
      else (((2 ^ 23 + frac) * 2 ^ (e - 150) : Nat) : ℚ)) = binary32Magnitude e frac := by
  have hulp (he : e ≠ 0) : ulp (e - 1) = 2 ^ ((e : ℤ) - 150) := by
    rw [ulp]
    congr 1
    omega
  unfold binary32Magnitude
  split_ifs with h0 hlow
  · rw [show ulp 0 = ((2 ^ 149 : Nat) : ℚ)⁻¹ by norm_num [ulp], div_eq_mul_inv]
  · rw [hulp h0, zpow_two_eq, show ((e : ℤ) - 150).toNat = 0 by omega,
      show (-((e : ℤ) - 150)).toNat = 150 - e by omega, pow_zero, mul_one_div]
    norm_cast
  · rw [hulp h0, zpow_two_eq, show ((e : ℤ) - 150).toNat = e - 150 by omega,
      show (-((e : ℤ) - 150)).toNat = 0 by omega, pow_zero, div_one]
    norm_cast

/-- The finite binary32 values, by the fields of their bits. -/
theorem f32_eq (w : Word) : f32 w = if (w.extractLsb' 23 8).toNat = 255 then none else
    some (if w.getLsbD 31 then -binary32Magnitude (w.extractLsb' 23 8).toNat (w.extractLsb' 0 23).toNat
      else binary32Magnitude (w.extractLsb' 23 8).toNat (w.extractLsb' 0 23).toNat) := by
  rw [← binary32Magnitude_eq_ite]
  rfl

/-- The magnitude is a significand below 2^24 times its unit. -/
theorem binary32Magnitude_eq (e : Nat) {frac : Nat} (h : frac < 2 ^ 23) :
    ∃ E m : Nat, m < 2 ^ 24 ∧ binary32Magnitude e frac = m * ulp E := by
  unfold binary32Magnitude
  split
  · exact ⟨0, frac, by omega, rfl⟩
  · exact ⟨e - 1, 2 ^ 23 + frac, by omega, rfl⟩

/-- Every finite binary32 value is an integer below 2^24 in magnitude times its unit. -/
theorem exists_of_f32_eq_some {w : Word} {v : ℚ} (h : f32 w = some v) :
    ∃ (E : Nat) (z : ℤ), |z| < 2 ^ 24 ∧ v = z * ulp E := by
  obtain ⟨E, m, hm, hmag⟩ := binary32Magnitude_eq (w.extractLsb' 23 8).toNat (w.extractLsb' 0 23).isLt
  have hz : |(m : ℤ)| < 2 ^ 24 := by
    rw [Nat.abs_cast]
    exact_mod_cast hm
  rw [f32_eq, hmag] at h
  split at h
  · cases h
  · split at h <;> cases h
    · exact ⟨E, -m, by rwa [abs_neg], by simp⟩
    · exact ⟨E, m, hz, by simp⟩

/-- Adding a significand to a shifted exponent carries into the exponent as the format wants (IEEE 754, log 17). -/
theorem binary32Magnitude_add {E m : Nat} (hm : m ≤ 2 ^ 24) (hlo : E = 0 ∨ 2 ^ 23 ≤ m) :
    binary32Magnitude ((E * 2 ^ 23 + m) / 2 ^ 23) ((E * 2 ^ 23 + m) % 2 ^ 23) = m * ulp E := by
  rcases Nat.lt_or_ge m (2 ^ 23) with hsub | hnormal
  · rw [hlo.resolve_right (by omega), show (0 * 2 ^ 23 + m) / 2 ^ 23 = 0 by omega,
      show (0 * 2 ^ 23 + m) % 2 ^ 23 = m by omega]
    rfl
  · rcases hm.eq_or_lt with rfl | hlt
    · rw [show (E * 2 ^ 23 + 2 ^ 24) / 2 ^ 23 = E + 2 by omega, show (E * 2 ^ 23 + 2 ^ 24) % 2 ^ 23 = 0 by omega,
        binary32Magnitude, if_neg (by omega), show E + 2 - 1 = E + 1 by omega, ulp_add]
      push_cast
      ring
    · rw [show (E * 2 ^ 23 + m) / 2 ^ 23 = E + 1 by omega, show (E * 2 ^ 23 + m) % 2 ^ 23 = m - 2 ^ 23 by omega,
        binary32Magnitude, if_neg (by omega), Nat.add_sub_cancel' hnormal, Nat.add_sub_cancel]

theorem getLsbD_31_of_lt {N : Nat} (h : N < 2 ^ 31) : (BitVec.ofNat 32 N).getLsbD 31 = false := by
  rw [BitVec.getLsbD_ofNat, Nat.testBit_lt_two_pow h, Bool.and_false]

theorem f32_ofNat {E m : Nat} (hE : E < 253) (hm : m ≤ 2 ^ 24) (hlo : E = 0 ∨ 2 ^ 23 ≤ m) :
    f32 (BitVec.ofNat 32 (E * 2 ^ 23 + m)) = some (m * ulp E) := by
  have hexp : ((BitVec.ofNat 32 (E * 2 ^ 23 + m)).extractLsb' 23 8).toNat = (E * 2 ^ 23 + m) / 2 ^ 23 := by
    rw [BitVec.extractLsb'_toNat, BitVec.toNat_ofNat, Nat.shiftRight_eq_div_pow]
    omega
  have hfrac : ((BitVec.ofNat 32 (E * 2 ^ 23 + m)).extractLsb' 0 23).toNat = (E * 2 ^ 23 + m) % 2 ^ 23 := by
    rw [BitVec.extractLsb'_toNat, BitVec.toNat_ofNat, Nat.shiftRight_zero]
    omega
  rw [f32_eq, hexp, hfrac, getLsbD_31_of_lt (by omega), if_neg (by omega), binary32Magnitude_add hm hlo]
  rfl

/-! ### RNE32 -/

/-- `x` rounds to `m` units of the binade of `E`: a subnormal, or a value from 2^23 units up. -/
structure RoundsTo (x : ℚ) (E m : Nat) : Prop where
  normal : E = 0 ∨ 2 ^ 23 * ulp E ≤ x
  below : x < 2 ^ 24 * ulp E
  near : |m - x / ulp E| ≤ 1 / 2
  even_of_tie : |m - x / ulp E| = 1 / 2 → m % 2 = 0

namespace RoundsTo

variable {x : ℚ} {E m : Nat}

theorem le (h : RoundsTo x E m) : m ≤ 2 ^ 24 := by
  have hr : x / ulp E < 2 ^ 24 := (div_lt_iff₀ (ulp_pos E)).2 h.below
  have hm := (abs_le.1 h.near).2
  have hlt : (m : ℚ) < 2 ^ 24 + 1 := by linarith
  exact Nat.lt_succ_iff.1 (by exact_mod_cast hlt)

theorem significand_ge (h : RoundsTo x E m) : E = 0 ∨ 2 ^ 23 ≤ m := by
  refine h.normal.imp_right fun hx => ?_
  have hr : 2 ^ 23 ≤ x / ulp E := (le_div_iff₀ (ulp_pos E)).2 hx
  have hm := (abs_le.1 h.near).1
  have hlt : (2 : ℚ) ^ 23 < m + 1 := by linarith
  exact Nat.lt_succ_iff.1 (by exact_mod_cast hlt)

/-- The distance from `x` in units. -/
theorem abs_sub_eq (y : ℚ) : |y * ulp E - x| = |y - x / ulp E| * ulp E := by
  have hu := ulp_pos E
  rw [← abs_of_pos hu, ← abs_mul, abs_of_pos hu, sub_mul, div_mul_cancel₀ _ hu.ne']

/-- Among the multiples of the unit the rounded one is nearest, and even in a tie. -/
theorem nearest_multiple (h : RoundsTo x E m) (j : ℤ) : |m * ulp E - x| ≤ |j * ulp E - x| ∧
    (|j * ulp E - x| = |m * ulp E - x| → (j : ℚ) * ulp E ≠ m * ulp E → m % 2 = 0) := by
  have hu := ulp_pos E
  obtain ⟨hle, htie⟩ := nearest_of_abs_sub_le_half (m := (m : ℤ)) (by exact_mod_cast h.near) j
  rw [Int.cast_natCast] at hle htie
  rw [abs_sub_eq, abs_sub_eq]
  refine ⟨by gcongr, fun heq hne => h.even_of_tie (htie (mul_right_cancel₀ hu.ne' heq) ?_)⟩
  rintro rfl
  exact hne (by simp)

/-- A binary32 value of a smaller unit lies below the binade, whose least value is nearer. -/
theorem nearest (h : RoundsTo x E m) {w : Word} {v : ℚ} (hv : f32 w = some v) : |m * ulp E - x| ≤ |v - x| ∧
    (|v - x| = |m * ulp E - x| → v ≠ m * ulp E → m % 2 = 0) := by
  obtain ⟨F, z, hz, rfl⟩ := exists_of_f32_eq_some hv
  rcases Nat.lt_or_ge F E with hFE | hEF
  · have hx : 2 ^ 23 * ulp E ≤ x := h.normal.resolve_left (by omega)
    have hsmall := mul_ulp_lt_of_lt hFE (abs_lt.1 hz).2
    have hbest := (h.nearest_multiple (2 ^ 23)).1
    rw [Int.cast_pow, Int.cast_ofNat, abs_of_nonpos (a := 2 ^ 23 * ulp E - x) (by linarith)] at hbest
    rw [abs_of_nonpos (a := (z : ℚ) * ulp F - x) (by linarith)]
    exact ⟨by linarith, fun heq _ => by linarith⟩
  · obtain ⟨k, rfl⟩ := Nat.exists_eq_add_of_le hEF
    have hmul : (z : ℚ) * ulp (E + k) = ((z * 2 ^ k : ℤ) : ℚ) * ulp E := by
      rw [ulp_add]
      push_cast
      ring
    rw [hmul]
    exact h.nearest_multiple _

end RoundsTo

theorem rne32Magnitude_of_pos {n d : Nat} (hn : 0 < n) {e : ℤ} (he : e = max (log2Ratio n d) (-126)) :
    rne32Magnitude n d = min ((e + 126).toNat * 2 ^ 23
      + roundHalfEven (n * 2 ^ (23 - e).toNat) (d * 2 ^ (-(23 - e)).toNat)) 0x7F800000 := by
  subst he
  exact if_neg hn.ne'

/-- The exponent and the significand that RNE32 packs are those of a rounding. -/
theorem exists_roundsTo {n d : Nat} (hn : 0 < n) (hd : 0 < d) (hx : (n / d : ℚ) ≤ 255) :
    ∃ E m : Nat, RoundsTo (n / d) E m ∧ E ≤ 133 ∧ rne32Magnitude n d = E * 2 ^ 23 + m := by
  obtain ⟨hlo, hhi⟩ := log2Ratio_spec hn hd
  obtain ⟨e, he⟩ : ∃ e, e = max (log2Ratio n d) (-126) := ⟨_, rfl⟩
  obtain ⟨E, hE⟩ : ∃ E : Nat, (E : ℤ) = e + 126 := ⟨(e + 126).toNat, by omega⟩
  have hlog : log2Ratio n d < 8 := by
    rw [← zpow_lt_zpow_iff_right₀ (one_lt_two (α := ℚ))]
    exact hlo.trans_lt (hx.trans_lt (by norm_num))
  have hulp (k : Nat) : 2 ^ k * ulp E = 2 ^ (e - 23 + k) := by
    rw [ulp, ← zpow_natCast, ← zpow_add₀ two_ne_zero]
    congr 1
    omega
  have hunit : (2 : ℚ) ^ (23 - e) = (ulp E)⁻¹ := by
    rw [ulp, ← zpow_neg]
    congr 1
    omega
  obtain ⟨hnear, htie⟩ :=
    roundHalfEven_spec (n * 2 ^ (23 - e).toNat) (d := d * 2 ^ (-(23 - e)).toNat) (by positivity)
  rw [scaled_ratio_eq, hunit, ← div_eq_mul_inv] at hnear htie
  have hround : RoundsTo (n / d) E (roundHalfEven (n * 2 ^ (23 - e).toNat) (d * 2 ^ (-(23 - e)).toNat)) := by
    refine ⟨?_, ?_, hnear, htie⟩
    · rcases Int.le_total (log2Ratio n d) (-126) with hsub | hnormal
      · exact .inl (by omega)
      · rw [hulp, show e - 23 + (23 : ℕ) = log2Ratio n d by omega]
        exact .inr hlo
    · rw [hulp]
      exact hhi.trans_le (zpow_le_zpow_right₀ one_le_two (by omega))
  refine ⟨E, _, hround, by omega, ?_⟩
  have hm := hround.le
  rw [rne32Magnitude_of_pos hn he, show (e + 126).toNat = E by omega]
  exact Nat.min_eq_left (by omega)

theorem exists_roundsTo_rne32 {x : ℚ} (h0 : 0 < x) (hx : x ≤ 255) :
    ∃ E m : Nat, RoundsTo x E m ∧ E ≤ 133 ∧ rne32 x = BitVec.ofNat 32 (E * 2 ^ 23 + m) := by
  have hnum : ((x.num.natAbs : ℕ) : ℚ) / x.den = x := by
    rw [Nat.cast_natAbs, abs_of_pos (Rat.num_pos.2 h0), Rat.num_div_den]
  obtain ⟨E, m, hround, hE, hbits⟩ :=
    exists_roundsTo (n := x.num.natAbs) (Int.natAbs_pos.2 (Rat.num_pos.2 h0).ne') x.den_pos (hnum.trans_le hx)
  rw [hnum] at hround
  exact ⟨E, m, hround, hE, by rw [rne32, if_neg h0.not_gt, hbits]⟩

theorem rne32_zero : rne32 0 = 0 := by
  simp [rne32, rne32Magnitude]

theorem f32_zero : f32 0 = some 0 := by
  simp [f32]

/-- Settles O45: a positive number rounds in units of its binade, and no binary32 value lies nearer. -/
theorem roundsToNearestEven : Obligations.RoundsToNearestEven := by
  refine ⟨rne32_zero, fun x h0 hx => ?_⟩
  rcases h0.eq_or_lt with rfl | h0
  · rw [rne32_zero]
    refine ⟨0, f32_zero, fun w v' _ => ⟨by simp, fun htie hne => absurd (by simpa using htie) hne⟩⟩
  · obtain ⟨E, m, hround, hE, hbits⟩ := exists_roundsTo_rne32 h0 hx
    rw [hbits]
    refine ⟨_, f32_ofNat (by omega) hround.le hround.significand_ge, fun w v' hv => ?_⟩
    obtain ⟨hle, htie⟩ := hround.nearest hv
    refine ⟨hle, fun heq hne => ?_⟩
    have heven := htie heq hne
    rw [BitVec.getLsbD_ofNat, Nat.testBit_zero]
    simp only [Bool.and_eq_false_iff, decide_eq_false_iff_not]
    omega

/-! ### QF -/

/-- Rounding does not pass a binary32 value. -/
theorem f32_rne32_between {x lo hi : ℚ} {l h : Word} (h0 : 0 ≤ x) (hx : x ≤ 255) (hlo : f32 l = some lo)
    (hhi : f32 h = some hi) (hlox : lo ≤ x) (hxhi : x ≤ hi) :
    ∃ v, f32 (rne32 x) = some v ∧ lo ≤ v ∧ v ≤ hi := by
  obtain ⟨v, hv, hnear⟩ := roundsToNearestEven.2 x h0 hx
  have hl := (hnear l lo hlo).1
  have hh := (hnear h hi hhi).1
  rw [abs_of_nonpos (sub_nonpos.2 hlox)] at hl
  rw [abs_of_nonneg (sub_nonneg.2 hxhi)] at hh
  exact ⟨v, hv, by linarith [neg_abs_le (v - x)], by linarith [le_abs_self (v - x)]⟩

theorem getLsbD_31_rne32 {x : ℚ} (h0 : 0 ≤ x) (hx : x ≤ 255) : (rne32 x).getLsbD 31 = false := by
  rcases h0.eq_or_lt with rfl | h0
  · rw [rne32_zero]
    rfl
  · obtain ⟨E, m, hround, hE, hbits⟩ := exists_roundsTo_rne32 h0 hx
    have hm := hround.le
    rw [hbits, getLsbD_31_of_lt (by omega)]

theorem exists_f32_scaleValue (f : FloatScale) : ∃ w, f32 w = some (scaleValue f) := by
  cases f with
  | one =>
    have h1 := f32_ofNat (E := 126) (m := 2 ^ 23) (by omega) (by omega) (by omega)
    exact ⟨_, h1.trans (by norm_num [ulp, scaleValue])⟩
  | full255 =>
    have h255 := f32_ofNat (E := 133) (m := 255 * 2 ^ 16) (by omega) (by omega) (by omega)
    exact ⟨_, h255.trans (by norm_num [ulp, scaleValue])⟩

theorem scaleValue_bounds (f : FloatScale) : 0 < scaleValue f ∧ scaleValue f ≤ 255 := by
  cases f <;> norm_num [scaleValue]

/-- The clamp brings every rational into the range of FLOAT_SCALE (40_transform R155). -/
theorem scaled_clamp_bounds (f : FloatScale) (q : ℚ) :
    0 ≤ clamp255 q * scaleValue f / 255 ∧ clamp255 q * scaleValue f / 255 ≤ scaleValue f := by
  obtain ⟨hpos, -⟩ := scaleValue_bounds f
  have h0 : 0 ≤ clamp255 q := le_min (le_max_right _ _) (by norm_num)
  have h255 : clamp255 q ≤ 255 := min_le_right _ _
  refine ⟨by positivity, ?_⟩
  rw [div_le_iff₀ (by norm_num), mul_comm (scaleValue f)]
  gcongr

theorem qf_of_nonpos (f : FloatScale) {q : ℚ} (h : q ≤ 0) : qf f q = 0 := by
  have hclamp : clamp255 q = 0 := by
    rw [clamp255, max_eq_right h]
    norm_num
  rw [qf, hclamp, zero_mul, zero_div, rne32_zero]

/-- Settles O44: the clamped and scaled value lies between 0 and FLOAT_SCALE, which are binary32 values. -/
theorem floatQuantiserRange : Obligations.FloatQuantiserRange := by
  intro f q
  obtain ⟨h0, hscale⟩ := scaled_clamp_bounds f q
  have h255 := hscale.trans (scaleValue_bounds f).2
  obtain ⟨w, hw⟩ := exists_f32_scaleValue f
  exact ⟨getLsbD_31_rne32 h0 h255, f32_rne32_between h0 h255 f32_zero hw h0 hscale, qf_of_nonpos f⟩

end Sys2Proof.Machine

/-! PROOFS. YUV to RGB conversion (41_yuv_to_rgb R200 to R203): what a stored pixel reads as, the completion of the 24
operations, that equal samples give equal bytes, and that neutral chroma is exact. -/

namespace Sys2Proof.Machine

/-! ### Memory that holds some byte writes -/

/-- Memory reads as some byte writes say. -/
def Memory.Holds (m : Memory) (cells : List Host.Cell) : Prop := ∀ p ∈ cells, m.read p.1 = p.2

section
variable {m : Memory}

@[simp] theorem Memory.holds_nil : m.Holds [] := List.forall_mem_nil _

@[simp] theorem Memory.holds_cons {a : Nat} {v : Byte} {cells : List Host.Cell} :
    m.Holds ((a, v) :: cells) ↔ m.read a = v ∧ m.Holds cells :=
  List.forall_mem_cons

@[simp] theorem Memory.holds_append {l k : List Host.Cell} : m.Holds (l ++ k) ↔ m.Holds l ∧ m.Holds k :=
  List.forall_mem_append

/-- A word is the four bytes of its little-endian write (20_memory R64). -/
theorem Memory.read32_of_holds {a : Nat} {v : Word} (h : m.Holds (cells32 a v)) : m.read32 a = v := by
  simp only [cells32, Memory.holds_cons, Memory.holds_nil, and_true] at h
  obtain ⟨h0, h1, h2, h3⟩ := h
  rw [Memory.read32, h0, h1, h2, h3, BitVec.extractLsb'_append_extractLsb'_eq_extractLsb' (show 24 = 16 + 8 from rfl),
    BitVec.extractLsb'_append_extractLsb'_eq_extractLsb' (show 16 = 8 + 8 from rfl),
    BitVec.extractLsb'_append_extractLsb'_eq_extractLsb' (show 8 = 0 + 8 from rfl), BitVec.extractLsb'_eq_self]

end

/-! ### A stored pixel -/

section
variable {m : Memory} {f : FloatScale} {t : RgbType}

theorem channelHolds_of_holds {a : Nat} {q : ℚ} (h : m.Holds (channelCells f t a q)) : ChannelHolds f t m a q := by
  unfold channelCells at h
  unfold ChannelHolds
  split_ifs at h ⊢
  · simpa using h
  · exact Memory.read32_of_holds h

theorem alphaHolds_of_holds {a : Nat} (h : m.Holds (alphaCells f t a)) : AlphaHolds f t m a := by
  unfold alphaCells at h
  unfold AlphaHolds
  split_ifs at h ⊢
  · simpa using h
  · exact Memory.read32_of_holds h

/-- Where the writes of a pixel stand, each of its channels holds its value (40_transform R156). -/
theorem channels_of_holds_storeRgb {c : Config} {x : Ctx} {b px py : Nat} {p : Rgb}
    (h : m.Holds (storeRgb c t x b px py p)) :
    ChannelHolds c.floatScale t m (addrRgb t x b px py 0) p.r ∧
      ChannelHolds c.floatScale t m (addrRgb t x b px py 1) p.g ∧
      ChannelHolds c.floatScale t m (addrRgb t x b px py 2) p.b ∧
      (channels t = 4 → AlphaHolds c.floatScale t m (addrRgb t x b px py 3)) := by
  simp only [storeRgb, Memory.holds_append] at h
  obtain ⟨⟨⟨hr, hg⟩, hb⟩, ha⟩ := h
  refine ⟨channelHolds_of_holds hr, channelHolds_of_holds hg, channelHolds_of_holds hb, fun h4 => ?_⟩
  rw [if_pos h4] at ha
  exact alphaHolds_of_holds ha

end

/-! ### The completion of an operation that is ready -/

/-- An instruction that is ready completes with SUCCESS and its own count, keeps memory outside the regions it writes,
and leaves its writes standing (40_transform R137). -/
theorem exec_of_ready_completed {i : Instr} {op : Operation} {s : State} (hop : operationOf s.cfg i = op)
    (h : Ready i op s) :
    ∃ t, exec i s = .next t ∧ Completed .success (operationCount s.cfg op s.ctx) s t ∧
      KeptOutside (writeRegions op s.ctx) s t ∧
      t.mem.Holds (operationCells s.cfg op s.ctx s.mem (Config.freeByte s.draws)) := by
  subst hop
  obtain ⟨hx, hf, hu, hm⟩ := h
  have hW := even_width_of_executes hx
  exact ⟨_, exec_succeeds hx hf, succeed_completed, succeed_keptOutside hW,
    fun _ hcell => read_succeed_of_mem hW hm hu hcell⟩

theorem holds_storeRgb_of_yuvToRgbCells {c : Config} {l : YuvLayout} {t : RgbType} {x : Ctx} {m n : Memory}
    (h : n.Holds (yuvToRgbCells c l t x m)) {px py : Nat} (hx : px < x.W) (hy : py < x.H) :
    n.Holds (storeRgb c t x x.dst.toNat px py (dec c.mdec (fetch l x m x.src.toNat px py))) :=
  fun cell hcell => h cell (List.mem_flatMap.2 ⟨(px, py), mem_raster.2 ⟨hx, hy⟩, hcell⟩)

theorem operationOf_yuvToRgbInstr (c : Config) (l : YuvLayout) (t : RgbType) :
    operationOf c (yuvToRgbInstr l t) = .yuvToRgb l t := by
  rcases l with l | l <;> cases l <;> cases t <;> rfl

theorem yuvToRgbInstr_of_row : ∀ e ∈ yuvToRgb8Rows ++ yuvToRgbFloatRows, e.1 = yuvToRgbInstr e.2.1 e.2.2 := by decide

theorem operationOf_yuvToRgbRow (c : Config) {e : Instr × YuvLayout × RgbType}
    (he : e ∈ yuvToRgb8Rows ++ yuvToRgbFloatRows) : operationOf c e.1 = .yuvToRgb e.2.1 e.2.2 := by
  rw [yuvToRgbInstr_of_row e he, operationOf_yuvToRgbInstr]

theorem bytesPerChannel_yuvToRgb8Row : ∀ e ∈ yuvToRgb8Rows, bytesPerChannel e.2.2 = 1 := by decide

theorem bytesPerChannel_yuvToRgbFloatRow : ∀ e ∈ yuvToRgbFloatRows, bytesPerChannel e.2.2 = 4 := by decide

/-- Settles O14: the operation's writes stand, and each pixel's channels are bytes. -/
theorem yuvToRgb8Converts : Obligations.YuvToRgb8Converts := by
  intro e he s hready
  obtain ⟨t, hexec, hdone, hkept, hholds⟩ :=
    exec_of_ready_completed (operationOf_yuvToRgbRow s.cfg (List.mem_append_left _ he)) hready
  refine ⟨t, hexec, hdone, hkept, fun px py hx hy => ?_⟩
  have h1 := bytesPerChannel_yuvToRgb8Row e he
  have hpixel := channels_of_holds_storeRgb (holds_storeRgb_of_yuvToRgbCells hholds hx hy)
  simpa [ChannelHolds, AlphaHolds, addrRgb, Ctx.W, h1, ← Nat.add_assoc] using hpixel

/-- Settles O15: the operation's writes stand, and each pixel's channels are words of four bytes. -/
theorem yuvToRgbFloatConverts : Obligations.YuvToRgbFloatConverts := by
  intro e he s hready
  obtain ⟨t, hexec, hdone, hkept, hholds⟩ :=
    exec_of_ready_completed (operationOf_yuvToRgbRow s.cfg (List.mem_append_right _ he)) hready
  refine ⟨t, hexec, hdone, hkept, fun px py hx hy => ?_⟩
  have h4 := bytesPerChannel_yuvToRgbFloatRow e he
  have hpixel := channels_of_holds_storeRgb (holds_storeRgb_of_yuvToRgbCells hholds hx hy)
  simpa [ChannelHolds, AlphaHolds, addrRgb, Ctx.W, h4, Nat.add_mul, ← Nat.add_assoc] using hpixel

/-! ### Equal samples give equal bytes -/

/-- The writes of a conversion depend on its source through the triples of the pixels alone. -/
theorem yuvToRgbCells_congr {c : Config} {l k : YuvLayout} {t : RgbType} {x : Ctx} {m n : Memory}
    (h : ∀ px py, px < x.W → py < x.H → fetch l x m x.src.toNat px py = fetch k x n x.src.toNat px py) :
    yuvToRgbCells c l t x m = yuvToRgbCells c k t x n := by
  refine List.flatMap_congr fun p hp => ?_
  obtain ⟨hx, hy⟩ := mem_raster.1 hp
  rw [h p.1 p.2 hx hy]

/-- Two memories that hold the same writes agree at every address written. -/
theorem Memory.Holds.read_eq {m n : Memory} {cells : List Host.Cell} (hm : m.Holds cells) (hn : n.Holds cells) {a : Nat}
    (ha : a ∈ addresses cells) : m.read a = n.read a := by
  obtain ⟨⟨a, v⟩, hcell, rfl⟩ := List.mem_map.1 ha
  exact (hm _ hcell).trans (hn _ hcell).symm

/-- Settles O48: both operations make the same writes, and these cover the destination region. -/
theorem layoutEquivalence : Obligations.LayoutEquivalence := by
  intro i j l k ty s z hi hj hs hz hcfg hctx hfetch
  obtain ⟨t, hexecs, -, -, ht⟩ := exec_of_ready_completed (operationOf_yuvToRgbRow s.cfg hi) hs
  obtain ⟨u, hexecz, -, -, hu⟩ := exec_of_ready_completed (operationOf_yuvToRgbRow z.cfg hj) hz
  refine ⟨t, u, hexecs, hexecz, fun a ha => ?_⟩
  have hwritten := (mem_addresses_operationCells (c := s.cfg) (m := s.mem) (free := Config.freeByte s.draws)
    (even_width_of_executes hs.1)).2 (.inl ha)
  simp only [operationCells, hcfg, hctx, ← yuvToRgbCells_congr hfetch] at ht hu hwritten
  exact ht.read_eq hu hwritten

/-! ### Neutral chroma -/

theorem dec_neutral (k : DecodeMatrix) (y : Byte) :
    dec k { y := y, u := 128, v := 128 } = { r := (y.toNat : ℚ), g := (y.toNat : ℚ), b := (y.toNat : ℚ) } := by
  simp [dec]

theorem q8_byte (y : Byte) : q8 (y.toNat : ℚ) = y := by
  have hy := y.isLt
  have hq := quantiserRule (y.toNat : ℚ)
  rw [Int.floor_natCast_add, show ⌊(1 / 2 : ℚ)⌋ = 0 by norm_num] at hq
  exact BitVec.eq_of_toNat_eq (by omega)

/-- Every natural number of at most 24 bits is a binary32 value (IEEE 754, log 17). -/
theorem exists_f32_natCast {n : Nat} (hn : n < 2 ^ 24) : ∃ w, f32 w = some (n : ℚ) := by
  rcases Nat.eq_zero_or_pos n with rfl | hpos
  · exact ⟨0, by simpa using f32_zero⟩
  have hlog : Nat.log2 n < 24 := (Nat.log2_lt hpos.ne').2 hn
  obtain ⟨k, hk⟩ : ∃ k, Nat.log2 n + k = 23 := Nat.le.dest (by omega)
  have hpow : 2 ^ Nat.log2 n * 2 ^ k = 2 ^ 23 := by rw [← pow_add, hk]
  have hlo : 2 ^ 23 ≤ n * 2 ^ k := hpow ▸ Nat.mul_le_mul_right _ (Nat.log2_self_le hpos.ne')
  have hhi : n * 2 ^ k ≤ 2 ^ 24 := by
    calc n * 2 ^ k ≤ 2 ^ (Nat.log2 n + 1) * 2 ^ k := Nat.mul_le_mul_right _ Nat.lt_log2_self.le
      _ = 2 ^ 24 := by rw [pow_succ, mul_right_comm, hpow]; norm_num
  have hunit : 2 ^ k * ulp (126 + Nat.log2 n) = 1 := by
    rw [← ulp_add, Nat.add_assoc, hk]
    norm_num [ulp]
  refine ⟨_, (f32_ofNat (E := 126 + Nat.log2 n) (by omega) hhi (.inr hlo)).trans ?_⟩
  push_cast
  rw [mul_assoc, hunit, mul_one]

/-- RNE32 keeps a number that is a binary32 value. -/
theorem f32_rne32_of_f32 {x : ℚ} {w : Word} (h0 : 0 ≤ x) (hx : x ≤ 255) (hw : f32 w = some x) :
    f32 (rne32 x) = some x := by
  obtain ⟨v, hv, hle, hge⟩ := f32_rne32_between h0 hx hw hw le_rfl le_rfl
  rw [hv, le_antisymm hge hle]

theorem f32_qf_byte (y : Byte) : f32 (qf .full255 (y.toNat : ℚ)) = some (y.toNat : ℚ) := by
  have hy : (y.toNat : ℚ) ≤ 255 := by exact_mod_cast Nat.le_of_lt_succ y.isLt
  have hscaled : clamp255 (y.toNat : ℚ) * scaleValue .full255 / 255 = y.toNat := by
    rw [clamp255, max_eq_left (by positivity), min_eq_left hy, scaleValue, mul_div_cancel_right₀ _ (by norm_num)]
  obtain ⟨w, hw⟩ := exists_f32_natCast (n := y.toNat) (by omega)
  rw [qf, hscaled, f32_rne32_of_f32 (by positivity) hy hw]

/-- Settles O46: at neutral chroma the matrix has no effect, and a byte is an integer and a binary32 value. -/
theorem greyIsExact : Obligations.GreyIsExact := fun k y => ⟨dec_neutral k y, q8_byte y, f32_qf_byte y⟩

end Sys2Proof.Machine

/-! PROOFS. RGB to YUV conversion (42_rgb_to_yuv R240, R243): the samples of finite pixels, the completion of the twelve
operations, and the round trip of a uniform block. -/

namespace Sys2Proof.Machine

/-! ### The samples of finite pixels -/

section
variable {c : Config} {t : RgbType} {x : Ctx} {m : Memory}

/-- The writes of the Y plane hold the sample of every pixel of the frame (42_rgb_to_yuv R240). -/
theorem mem_lumaCells (free : Nat → Byte) {px py : Nat} (hx : px < x.W) (hy : py < x.H) :
    (addrY x x.dst.toNat px py,
      (lumaSample c t x m x.src.toNat px py).getD (free (addrY x x.dst.toNat px py))) ∈ lumaCells c t x m free :=
  List.mem_map.2 ⟨(px, py), mem_raster.2 ⟨hx, hy⟩, rfl⟩

theorem lumaSample_of_finite {b px py : Nat} {p : YuvExact} (h : encodePixel c t x m b px py = some p) :
    lumaSample c t x m b px py = some (q8 p.y) := by
  rw [lumaSample, h, Option.map_some]

/-- A block of four finite pixels has the quantised means of their exact U and V (40_transform R153). -/
theorem chromaBlock_of_finite {b bX bY : Nat} {p q r z : YuvExact}
    (hp : encodePixel c t x m b (2 * bX) (2 * bY) = some p)
    (hq : encodePixel c t x m b (2 * bX + 1) (2 * bY) = some q)
    (hr : encodePixel c t x m b (2 * bX) (2 * bY + 1) = some r)
    (hz : encodePixel c t x m b (2 * bX + 1) (2 * bY + 1) = some z) :
    chromaBlock c t x m b bX bY = some (mean4 p.u q.u r.u z.u, mean4 p.v q.v r.v z.v) := by
  simp only [chromaBlock, hp, hq, hr, hz, mean4]

end

/-- The exact samples a statement speaks of are those the operations compute. -/
theorem encodePixel_eq_sourceYuv (s : State) (t : RgbType) (px py : Nat) :
    encodePixel s.cfg t s.ctx s.mem s.ctx.src.toNat px py = sourceYuv s t px py := rfl

/-- Settles O16: the operation's writes stand, and those of finite pixels and blocks are the quantised exact samples. -/
theorem rgbToYuvConverts : Obligations.RgbToYuvConverts := by
  intro e he s hready
  obtain ⟨t, hexec, hdone, hkept, hholds⟩ := exec_of_ready_completed (operationOf_rgbToYuvRow s.cfg he) hready
  refine ⟨t, hexec, hdone, hkept, fun px py p hx hy hp => ?_, fun bX bY p q r z hbX hbY hp hq hr hz => ?_⟩
  · have hluma := hholds _ (List.mem_append_left _ (mem_lumaCells _ hx hy))
    rwa [lumaSample_of_finite ((encodePixel_eq_sourceYuv ..).trans hp)] at hluma
  · obtain ⟨hU, hV⟩ := mem_rgbToYuvCells_chroma (c := s.cfg) (t := e.2.1) (m := s.mem) e.2.2
      (Config.freeByte s.draws) hbX hbY
    rw [← encodePixel_eq_sourceYuv] at hp hq hr hz
    rw [chromaSample, chromaBlock_of_finite hp hq hr hz] at hU hV
    exact ⟨hholds _ hU, hholds _ hV⟩

/-! ### The round trip of a uniform block -/

/-- Q8 of a value at most a half outside 0..255 lies within a half of it. -/
theorem abs_q8_sub_le {q : ℚ} (hlo : -(1 / 2) ≤ q) (hhi : q ≤ 255 + 1 / 2) : |((q8 q).toNat : ℚ) - q| ≤ 1 / 2 := by
  have hfloor := Int.floor_le (q + 1 / 2)
  have hlt := Int.lt_floor_add_one (q + 1 / 2)
  have hnonneg : 0 ≤ ⌊q + 1 / 2⌋ := Int.floor_nonneg.2 (by linarith)
  have hq8 := quantiserRule q
  rw [max_eq_left hnonneg] at hq8
  rw [abs_le]
  rcases le_or_gt ⌊q + 1 / 2⌋ 255 with h | h
  · rw [min_eq_left h] at hq8
    have hcast : ((q8 q).toNat : ℚ) = (⌊q + 1 / 2⌋ : ℚ) := by exact_mod_cast hq8
    constructor <;> linarith
  · rw [min_eq_right h.le] at hq8
    have hcast : ((q8 q).toNat : ℚ) = 255 := by exact_mod_cast hq8
    have hbound : ((255 + 1 : ℤ) : ℚ) ≤ ⌊q + 1 / 2⌋ := by exact_mod_cast h
    push_cast at hbound
    constructor <;> linarith

/-- Q8 of a value less than one and a half from a byte lies within 1 of that byte. -/
theorem abs_q8_sub_byte_le_one {q : ℚ} {n : Byte} (h : |q - n.toNat| < 3 / 2) :
    |((q8 q).toNat : ℤ) - n.toNat| ≤ 1 := by
  obtain ⟨hlo, hhi⟩ := abs_lt.1 h
  have hge : (n.toNat : ℤ) - 1 ≤ ⌊q + 1 / 2⌋ := Int.le_floor.2 (by push_cast; linarith)
  have hle : ⌊q + 1 / 2⌋ < (n.toNat : ℤ) + 2 := Int.floor_lt.2 (by push_cast; linarith)
  have hn := n.isLt
  rw [quantiserRule, abs_le]
  omega

/-- The mean of four equal samples is the sample. -/
theorem mean4_self (q : ℚ) : mean4 q q q q = q8 q := by
  rw [mean4, show (q + q + q + q) / 4 = q by ring]

/-- The channels lie on the 0..255 scale. -/
def Rgb.InRange (p : Rgb) : Prop := (0 ≤ p.r ∧ p.r ≤ 255) ∧ (0 ≤ p.g ∧ p.g ≤ 255) ∧ (0 ≤ p.b ∧ p.b ≤ 255)

/-- The samples lie within a half of the exact ones. -/
def Yuv.Rounds (s : Yuv) (e : YuvExact) : Prop :=
  |(s.y.toNat : ℚ) - e.y| ≤ 1 / 2 ∧ |(s.u.toNat : ℚ) - e.u| ≤ 1 / 2 ∧ |(s.v.toNat : ℚ) - e.v| ≤ 1 / 2

/-- The default `Menc` leaves no sample more than a half outside 0..255, so Q8 clamps none by more than its rounding. -/
theorem q8_enc_rounds {p : Rgb} (hp : p.InRange) :
    Yuv.Rounds { y := q8 (enc bt601Encode p).y, u := q8 (enc bt601Encode p).u, v := q8 (enc bt601Encode p).v }
      (enc bt601Encode p) := by
  obtain ⟨⟨hr0, hr1⟩, ⟨hg0, hg1⟩, ⟨hb0, hb1⟩⟩ := hp
  refine ⟨abs_q8_sub_le ?_ ?_, abs_q8_sub_le ?_ ?_, abs_q8_sub_le ?_ ?_⟩ <;>
    simp only [enc, bt601Encode] <;> linarith

/-- The default `Mdec` nearly inverts `Menc` and magnifies the rounding of the samples to less than one and a half. -/
theorem dec_near_of_rounds {p : Rgb} {s : Yuv} (hp : p.InRange) (hs : s.Rounds (enc bt601Encode p)) :
    |(dec bt601Decode s).r - p.r| < 3 / 2 ∧ |(dec bt601Decode s).g - p.g| < 3 / 2 ∧
      |(dec bt601Decode s).b - p.b| < 3 / 2 := by
  obtain ⟨⟨hr0, hr1⟩, ⟨hg0, hg1⟩, ⟨hb0, hb1⟩⟩ := hp
  obtain ⟨hy, hu, hv⟩ := hs
  simp only [enc, bt601Encode, abs_le] at hy hu hv
  obtain ⟨hy0, hy1⟩ := hy
  obtain ⟨hu0, hu1⟩ := hu
  obtain ⟨hv0, hv1⟩ := hv
  simp only [dec, bt601Decode, abs_lt]
  refine ⟨⟨?_, ?_⟩, ⟨?_, ?_⟩, ⟨?_, ?_⟩⟩ <;> linarith

theorem Rgb.inRange_bytes (r g b : Byte) :
    Rgb.InRange { r := (r.toNat : ℚ), g := (g.toNat : ℚ), b := (b.toNat : ℚ) } := by
  have hbyte (n : Byte) : (0 : ℚ) ≤ n.toNat ∧ (n.toNat : ℚ) ≤ 255 :=
    ⟨by positivity, by exact_mod_cast Nat.le_of_lt_succ n.isLt⟩
  exact ⟨hbyte r, hbyte g, hbyte b⟩

/-- Settles O47: the samples are within a half of the exact ones, so the decoded channels are less than one and a half
from the input, and quantise to within 1 of it. -/
theorem uniformBlockRoundTrip : Obligations.UniformBlockRoundTrip := by
  intro r g b
  have hrange := Rgb.inRange_bytes r g b
  simp only [mean4_self]
  obtain ⟨hr, hg, hb⟩ := dec_near_of_rounds hrange (q8_enc_rounds hrange)
  exact ⟨abs_q8_sub_byte_le_one hr, abs_q8_sub_byte_le_one hg, abs_q8_sub_byte_le_one hb⟩

end Sys2Proof.Machine

/-! PROOFS. The data channel (43_data_channel R270 to R290): placement, the vote, capacity, what an embed and an extract
leave in memory, and that an extract recovers what an embed wrote. -/

namespace Sys2Proof.Machine

/-! ### What a ready instruction leaves in memory -/

section
variable {i : Instr} {op : Operation} {s t : State}

theorem mem_of_ready (hop : operationOf s.cfg i = op) (h : Ready i op s) (hexec : exec i s = .next t) :
    t.mem = s.mem.writeAll (operationCells s.cfg op s.ctx s.mem (Config.freeByte s.draws)) := by
  subst hop
  obtain ⟨hx, hf, hu, -⟩ := h
  cases hexec.symm.trans (exec_succeeds hx hf)
  rw [succeed_mem, outputCells_of_undisturbed hu]

theorem holds_of_ready (hop : operationOf s.cfg i = op) (h : Ready i op s) (hexec : exec i s = .next t) :
    t.mem.Holds (operationCells s.cfg op s.ctx s.mem (Config.freeByte s.draws)) := by
  obtain ⟨u, hu, -, -, hholds⟩ := exec_of_ready_completed hop h
  cases hexec.symm.trans hu
  exact hholds

/-- A ready instruction keeps every byte that it does not write, those at the end of an extract's auxiliary region among
them. -/
theorem keptOutside_written_of_ready (hop : operationOf s.cfg i = op) (h : Ready i op s) (hexec : exec i s = .next t) :
    KeptOutside [dstRegion op s.ctx, { base := s.ctx.aux.toNat, size := auxBytesWritten s.cfg op s.ctx }] s t := by
  intro a ha
  rw [mem_of_ready hop h hexec]
  refine Memory.read_writeAll_other _ _ _ fun p hp hpa => ?_
  have hwritten := (mem_addresses_operationCells (even_width_of_executes h.1)).1 (List.mem_map_of_mem hp)
  rw [hpa] at hwritten
  simp only [inRegions, List.any_cons, List.any_nil, Bool.or_false, Bool.or_eq_false_iff] at ha
  obtain ⟨hdst, haux⟩ := ha
  rcases hwritten with hin | hin
  · rw [hdst] at hin
    cases hin
  · simp only [inRegion, Bool.and_eq_false_iff, decide_eq_false_iff_not] at haux
    omega

end

/-! ### What an embed writes -/

/-- U and V of a block of four finite pixels are the quantised exact means (40_transform R153). -/
theorem chromaSample_of_finite {c : Config} {t : RgbType} {x : Ctx} {m : Memory} (l : Sub420) (free : Nat → Byte)
    {b : Nat × Nat} {p q r z : YuvExact}
    (hp : encodePixel c t x m x.src.toNat (2 * b.1) (2 * b.2) = some p)
    (hq : encodePixel c t x m x.src.toNat (2 * b.1 + 1) (2 * b.2) = some q)
    (hr : encodePixel c t x m x.src.toNat (2 * b.1) (2 * b.2 + 1) = some r)
    (hz : encodePixel c t x m x.src.toNat (2 * b.1 + 1) (2 * b.2 + 1) = some z) :
    chromaSample c t l x m free b = (mean4 p.u q.u r.u z.u, mean4 p.v q.v r.v z.v) := by
  rw [chromaSample, chromaBlock_of_finite hp hq hr hz, Option.getD_some]

/-- Settles O17: the embed's writes stand, and those of finite pixels and blocks are the quantised exact samples, U
coded. -/
theorem embedWritesCarriers : Obligations.EmbedWritesCarriers := by
  intro flip s hready
  obtain ⟨t, hexec, hdone, hkept, hholds⟩ := exec_of_ready_completed rfl hready
  refine ⟨t, hexec, hdone, hkept, fun px py p hx hy hp => ?_, fun k p q r z hk hp hq hr hz => ?_⟩
  · have hluma := hholds _ (List.mem_append_left _ (mem_lumaCells _ hx hy))
    rwa [lumaSample_of_finite ((encodePixel_eq_sourceYuv ..).trans hp)] at hluma
  · obtain ⟨hU, hV⟩ := mem_embedCells_chroma (c := s.cfg) (t := s.cfg.embedType) (m := s.mem) flip
      (Config.freeByte s.draws) hk
    rw [← encodePixel_eq_sourceYuv] at hp hq hr hz
    rw [chromaSample_of_finite (b := place s.ctx k flip) _ _ hp hq hr hz] at hU hV
    exact ⟨hholds _ hV, hholds _ hU⟩

/-! ### What an extract writes -/

/-- The number whose `n` binary digits are `bit 0` to `bit (n - 1)`, most significant first. -/
def msbFirst (bit : Nat → Bool) (n : Nat) : Nat :=
  ((List.range n).map fun j => if bit j then 2 ^ (n - 1 - j) else 0).sum

theorem decodeByte_eq_msbFirst (c : Config) (sample : Nat → Byte) (i : Nat) :
    decodeByte c sample i = BitVec.ofNat 8 (msbFirst (fun j => decodeBit c sample (8 * i + j)) 8) := rfl

/-- A further digit doubles the number and comes last. -/
theorem msbFirst_succ (bit : Nat → Bool) (n : Nat) : msbFirst bit (n + 1) = Nat.bit (bit n) (msbFirst bit n) := by
  have hdouble : ((List.range n).map fun j => if bit j then 2 ^ (n + 1 - 1 - j) else 0)
      = (List.range n).map fun j => 2 * if bit j then 2 ^ (n - 1 - j) else 0 := by
    refine List.map_congr_left fun j hj => ?_
    have hexp : n + 1 - 1 - j = n - 1 - j + 1 := by
      have := List.mem_range.1 hj
      omega
    rw [hexp, pow_succ, mul_comm, mul_ite, mul_zero]
  rw [msbFirst, List.range_succ, List.map_append, List.sum_append, hdouble, List.sum_map_mul_left, ← msbFirst,
    Nat.bit_val]
  cases h : bit n <;> simp [h]

theorem testBit_msbFirst (bit : Nat → Bool) {n j : Nat} (hj : j < n) : (msbFirst bit n).testBit (n - 1 - j) = bit j := by
  induction n with
  | zero => omega
  | succ n ih =>
    rw [msbFirst_succ, Nat.add_sub_cancel]
    rcases Nat.lt_succ_iff_lt_or_eq.1 hj with hlt | rfl
    · rw [show n - j = n - 1 - j + 1 by omega, Nat.testBit_bit_succ, ih hlt]
    · rw [Nat.sub_self, Nat.testBit_bit_zero]

/-- Bit `j`, from the most significant, of a decoded byte (43_data_channel R279). -/
theorem getLsbD_decodeByte (c : Config) (sample : Nat → Byte) (i : Nat) {j : Nat} (hj : j < 8) :
    (decodeByte c sample i).getLsbD (7 - j) = decodeBit c sample (8 * i + j) := by
  rw [decodeByte_eq_msbFirst, BitVec.getLsbD_ofNat, testBit_msbFirst _ hj, decide_eq_true (by omega), Bool.true_and]

theorem holds_yuvToRgbCells_of_extract {c : Config} {t : RgbType} {x : Ctx} {m n : Memory}
    (h : n.Holds (extractCells c t x m)) : n.Holds (yuvToRgbCells c (.sub420 .nv12) t x m) :=
  (Memory.holds_append.1 h).1

theorem read_aux_of_extract {c : Config} {t : RgbType} {x : Ctx} {m n : Memory} (h : n.Holds (extractCells c t x m))
    {k : Nat} (hk : k < extractBytes c x) :
    n.read (x.aux.toNat + k) = decodeByte c (storedU .nv12 x m x.src.toNat) k :=
  (Memory.holds_append.1 h).2 _ (List.mem_map.2 ⟨k, List.mem_range.2 hk, rfl⟩)

/-- Settles O18: the extract's writes stand, each pixel's channels and each auxiliary byte's bits, and it writes nothing
else. -/
theorem extractWritesPixelsAndBytes : Obligations.ExtractWritesPixelsAndBytes := by
  intro s hready
  obtain ⟨t, hexec, hdone, -, hholds⟩ := exec_of_ready_completed rfl hready
  refine ⟨t, hexec, hdone, keptOutside_written_of_ready rfl hready hexec, fun px py hx hy => ?_, fun i j hi hj => ?_⟩
  · exact channels_of_holds_storeRgb
      (holds_storeRgb_of_yuvToRgbCells (holds_yuvToRgbCells_of_extract hholds) hx hy)
  · rw [read_aux_of_extract hholds hi, getLsbD_decodeByte _ _ _ hj]
    rfl

/-! ### The vote -/

/-- The constraints of 00_scope R5 on the codec's parameters. -/
theorem codec_of_wellFormed {c : Config} (h : c.wellFormed = true) :
    1 ≤ c.red ∧ 255 >>> c.shift < c.thresh ∧ c.thresh ≤ c.oneLevel.toNat := by
  simp only [Config.wellFormed, Config.redOk, Config.threshOk, Bool.and_eq_true, decide_eq_true_eq] at h
  obtain ⟨⟨⟨-, hred⟩, -⟩, hlow, hhigh⟩ := h
  exact ⟨hred, hlow, hhigh⟩

theorem toNat_byte_ushiftRight_le (v : Byte) (n : Nat) : (v >>> n).toNat ≤ 255 >>> n := by
  rw [BitVec.toNat_ushiftRight, Nat.shiftRight_eq_div_pow, Nat.shiftRight_eq_div_pow]
  exact Nat.div_le_div_right (Nat.le_of_lt_succ v.isLt)

/-- THRESH separates the samples of 1-bits from those of 0-bits, whatever the natural samples. -/
theorem thresh_le_embedSample {c : Config} (hc : c.wellFormed = true) (bit : Bool) (natural : Byte) :
    c.thresh ≤ (embedSample c bit natural).toNat ↔ bit = true := by
  obtain ⟨-, hlow, hhigh⟩ := codec_of_wellFormed hc
  cases bit with
  | true => simpa [embedSample] using hhigh
  | false => simpa [embedSample] using (toNat_byte_ushiftRight_le natural c.shift).trans_lt hlow

/-- The samples of bit `g`'s group are those a bit is written with, over some natural samples (43_data_channel R276). -/
def GroupWritten (c : Config) (bit : Bool) (sample : Nat → Byte) (g : Nat) : Prop :=
  ∀ j, j < c.red → ∃ natural, sample (g * c.red + j) = embedSample c bit natural

/-- How many samples of bit `g`'s group lie on the other side of THRESH in `noisy` than in `sample`. -/
def crossings (c : Config) (noisy sample : Nat → Byte) (g : Nat) : Nat :=
  (List.range c.red).countP fun j =>
    decide (c.thresh ≤ (noisy (g * c.red + j)).toNat) != decide (c.thresh ≤ (sample (g * c.red + j)).toNat)

theorem countP_le_countP_add_countP_bne {α : Type} (l : List α) (p q : α → Bool) :
    l.countP p ≤ l.countP q + l.countP fun a => p a != q a := by
  induction l with
  | nil => simp
  | cons a l ih =>
    simp only [List.countP_cons]
    cases p a <;> cases q a <;> simp <;> omega

/-- Each crossing changes the votes by one at most. -/
theorem votes_le_add_crossings (c : Config) (noisy sample : Nat → Byte) (g : Nat) :
    votes c noisy g ≤ votes c sample g + crossings c noisy sample g :=
  countP_le_countP_add_countP_bne ..

theorem crossings_comm (c : Config) (noisy sample : Nat → Byte) (g : Nat) :
    crossings c noisy sample g = crossings c sample noisy g :=
  List.countP_congr fun j _ => by rw [bne_comm]

theorem crossings_self (c : Config) (sample : Nat → Byte) (g : Nat) : crossings c sample sample g = 0 := by
  simp [crossings]

section
variable {c : Config} {bit : Bool} {sample : Nat → Byte} {g : Nat}

/-- A written group is unanimous. -/
theorem votes_of_groupWritten (hc : c.wellFormed = true) (h : GroupWritten c bit sample g) :
    votes c sample g = if bit then c.red else 0 := by
  have hvote : votes c sample g = (List.range c.red).countP fun _ => bit := by
    refine List.countP_congr fun j hj => ?_
    obtain ⟨natural, hj⟩ := h j (List.mem_range.1 hj)
    rw [hj, decide_eq_true_eq, thresh_le_embedSample hc]
  cases bit <;> simp [hvote]

/-- A written group decodes as its bit when few of its samples cross THRESH (43_data_channel R282). -/
theorem decodeBit_of_crossings (hc : c.wellFormed = true) (h : GroupWritten c bit sample g) {noisy : Nat → Byte}
    (hn : crossings c noisy sample g ≤ if bit then (c.red + 1) / 2 - 1 else c.red / 2) :
    decodeBit c noisy g = bit := by
  obtain ⟨hred, -, -⟩ := codec_of_wellFormed hc
  have hvotes := votes_of_groupWritten hc h
  have hlost := votes_le_add_crossings c sample noisy g
  have hgained := votes_le_add_crossings c noisy sample g
  rw [crossings_comm] at hlost
  rw [decodeBit]
  cases bit with
  | true =>
    rw [if_pos rfl] at hvotes hn
    rw [decide_eq_true_eq]
    omega
  | false =>
    rw [if_neg Bool.false_ne_true] at hvotes hn
    rw [decide_eq_false_iff_not]
    omega

theorem decodeBit_of_groupWritten (hc : c.wellFormed = true) (h : GroupWritten c bit sample g) :
    decodeBit c sample g = bit :=
  decodeBit_of_crossings hc h (by simp [crossings_self])

end

/-- Settles O51: a written group is unanimous, and its votes differ from a noisy group's by the crossings at most. -/
theorem voteSurvivesNoise : Obligations.VoteSurvivesNoise := by
  intro c bit natural sample noisy g hc hsample
  have hwritten : GroupWritten c bit sample g := fun j hj => ⟨_, hsample j hj⟩
  refine ⟨votes_of_groupWritten hc hwritten, ?_, decodeBit_of_groupWritten hc hwritten,
    decodeBit_of_crossings hc hwritten⟩
  rintro rfl j hj
  rw [hsample j hj]
  exact toNat_byte_ushiftRight_le ..

/-! ### Capacity -/

theorem overCapacity_iff {c : Config} {x : Ctx} :
    overCapacity c x = true ↔ c.capPolicy = .fail ∧ capBytes c x < x.auxlen.toNat := by
  rw [overCapacity, Bool.and_eq_true, decide_eq_true_eq, decide_eq_true_eq]
  rfl

/-- Within capacity an embed embeds the whole auxiliary buffer, under both policies (43_data_channel R280, R281). -/
theorem embedBits_of_fits {c : Config} {x : Ctx} (h : x.auxlen.toNat ≤ capBytes c x) :
    embedBits c x = 8 * x.auxlen.toNat := by
  simp only [embedBits, Ctx.auxBytes]
  split
  · rfl
  · rw [capBytes] at h
    omega

/-- Within capacity an extract fills the whole auxiliary buffer, under both policies (43_data_channel R280, R281). -/
theorem extractBytes_of_fits {c : Config} {x : Ctx} (h : x.auxlen.toNat ≤ capBytes c x) :
    extractBytes c x = x.auxlen.toNat := by
  simp only [extractBytes, Ctx.auxBytes]
  split
  · rfl
  · exact Nat.min_eq_left h

theorem index_lt_mul {g n red j : Nat} (hg : g < n) (hj : j < red) : g * red + j < n * red := by
  calc g * red + j < (g + 1) * red := by rw [Nat.succ_mul]; omega
    _ ≤ n * red := Nat.mul_le_mul_right _ hg

/-- The groups of the bits within capacity lie among the frame's U indices (43_data_channel R273). -/
theorem index_lt_NC_of_fits {c : Config} {x : Ctx} {g j : Nat} (hg : g < 8 * capBytes c x) (hj : j < c.red) :
    g * c.red + j < x.NC := by
  have hbits : g < x.NC / c.red := by
    rw [capBytes, capBits] at hg
    omega
  exact (index_lt_mul hbits hj).trans_le (Nat.div_mul_le_self ..)

/-- A supported operation with valid arguments that exceeds the capacity is turned away (40_transform R134). -/
theorem exec_of_capacityExceeded {i : Instr} {s : State} (hsup : i ∈ s.cfg.supported)
    (hvalid : invalidArgument s.cfg (operationOf s.cfg i) s.ctx = false)
    (h : capacityExceeded s.cfg (operationOf s.cfg i) s.ctx = true) :
    exec i s
      = .next (turnAway (Config.freeByte s.draws) .capacityExceeded (writeRegions (operationOf s.cfg i) s.ctx) s) := by
  rw [exec_eq_runOperation, runOperation, if_neg (not_not.2 hsup), if_neg (Bool.eq_false_iff.1 hvalid), if_pos h]

/-- CAPACITY_EXCEEDED comes from the capacity check alone. -/
theorem capacityExceeded_of_code {i : Instr} {s t : State} (h : exec i s = .next t)
    (hcode : t.code = .capacityExceeded) : capacityExceeded s.cfg (operationOf s.cfg i) s.ctx = true := by
  rw [exec_eq_runOperation] at h
  rcases runOperation_cases h with ⟨-, rfl⟩ | ⟨-, -, rfl⟩ | ⟨-, -, hcap, -⟩ | ⟨-, -, rfl⟩ | ⟨-, -, rfl⟩
  · cases hcode
  · cases hcode
  · exact hcap
  · cases hcode
  · cases hcode

theorem usesAux_dataChannel (c : Config) :
    ∀ i ∈ [Instr.rgb8ToI420Embed false, .rgb8ToI420Embed true, .nv12ToRgba8Extract],
      usesAux (operationOf c i) = true := by
  simp [operationOf, usesAux]

/-- Settles O9: the capacity check is the one of R280, and no other check gives its code. -/
theorem capacityPolicyFail : Obligations.CapacityPolicyFail := by
  intro i s hi hsup hvalid
  have hcheck : capacityExceeded s.cfg (operationOf s.cfg i) s.ctx = overCapacity s.cfg s.ctx := by
    rw [capacityExceeded, usesAux_dataChannel s.cfg i hi, Bool.true_and]
  refine ⟨fun hfail hover => ⟨_, exec_of_capacityExceeded hsup hvalid ?_, turnAway_turnedAway ..⟩,
    fun t hwithin hexec hcode => ?_⟩
  · exact hcheck.trans (overCapacity_iff.2 ⟨hfail, hover⟩)
  · obtain ⟨hfail, hover⟩ := overCapacity_iff.1 (hcheck.symm.trans (capacityExceeded_of_code hexec hcode))
    rcases hwithin with htruncate | hfits
    · cases hfail.symm.trans htruncate
    · exact absurd hover (Nat.not_lt.2 hfits)

/-! ### Placement -/

theorem exists_place (x : Ctx) (flip : Bool) {p : Nat × Nat} (hp : p ∈ x.blocks) :
    ∃ k, k < x.NC ∧ place x k flip = p := by
  simpa using (map_place_perm_blocks x flip).mem_iff.2 hp

theorem place_lt (x : Ctx) (flip : Bool) {k : Nat} (hk : k < x.NC) :
    (place x k flip).1 < x.CW ∧ (place x k flip).2 < x.CH :=
  mem_raster.1 (place_mem_blocks x flip hk)

/-- Settles O50: the placed U indices are the blocks in some order. -/
theorem placeIsBijective : Obligations.PlaceIsBijective := fun x flip =>
  ⟨fun _ => place_lt x flip, fun _ _ => place_inj x flip, fun _ _ hx hy => exists_place x flip (mem_raster.2 ⟨hx, hy⟩)⟩

/-! ### An extract recovers what an embed wrote -/

/-- The U sample at U index `k` of the I420 frame that an embed wrote (43_data_channel R272). -/
def embedFrameU (x : Ctx) (m : Memory) (flip : Bool) (k : Nat) : Byte :=
  m.read (addrU .i420 x x.dst.toNat (place x k flip).1 (place x k flip).2)

/-- Where an embed's writes stand, the group of each embedded bit is written with it, whatever the RGB content. -/
theorem groupWritten_of_embed {c : Config} {ty : RgbType} {flip : Bool} {x : Ctx} {m n : Memory} {free : Nat → Byte}
    (h : n.Holds (embedCells c ty flip x m free)) (hfits : x.auxlen.toNat ≤ capBytes c x) {g : Nat}
    (hg : g < 8 * x.auxlen.toNat) : GroupWritten c (auxBit m x.aux.toNat g) (embedFrameU x n flip) g := by
  intro j hj
  have hindex : g * c.red + j < x.NC := index_lt_NC_of_fits (by omega) hj
  have hpayload : g * c.red + j < embedBits c x * c.red := by
    rw [embedBits_of_fits hfits]
    exact index_lt_mul hg hj
  have hgroup : (g * c.red + j) / c.red = g := by
    rw [Nat.mul_comm, Nat.mul_add_div (by omega), Nat.div_eq_of_lt hj, Nat.add_zero]
  obtain ⟨hU, -⟩ := mem_embedCells_chroma (c := c) (t := ty) (m := m) flip free hindex
  rw [embeddedU, if_pos hpayload, hgroup] at hU
  exact ⟨_, h _ hU⟩

/-- Bit `j`, from the most significant, of byte `k` of an auxiliary buffer (43_data_channel R274). -/
theorem auxBit_byte (m : Memory) (b k : Nat) {j : Nat} (hj : j < 8) :
    auxBit m b (8 * k + j) = (m.read (b + k)).getLsbD (7 - j) := by
  rw [auxBit, show (8 * k + j) / 8 = k by omega, show (8 * k + j) % 8 = j by omega]

theorem decodeByte_eq_read {c : Config} {sample : Nat → Byte} {m : Memory} {b k : Nat}
    (h : ∀ j, j < 8 → decodeBit c sample (8 * k + j) = auxBit m b (8 * k + j)) :
    decodeByte c sample k = m.read (b + k) := by
  refine BitVec.eq_of_getLsbD_eq fun l hl => ?_
  have hj : 7 - l < 8 := by omega
  have hbit := getLsbD_decodeByte c sample k hj
  rw [h _ hj, auxBit_byte m b k hj, show 7 - (7 - l) = l by omega] at hbit
  exact hbit

/-- The samples that an embed left in its frame, in the order of their U indices, decode as the bytes it read. -/
theorem decodeByte_of_embed {flip : Bool} {s t : State} (hc : s.cfg.wellFormed = true)
    (hready : Ready (.rgb8ToI420Embed flip) (.embed s.cfg.embedType flip) s)
    (hexec : exec (.rgb8ToI420Embed flip) s = .next t) (hfits : s.ctx.auxlen.toNat ≤ capBytes s.cfg s.ctx)
    {sample : Nat → Byte} (hsample : ∀ k, k < s.ctx.NC → sample k = embedFrameU s.ctx t.mem flip k) {k : Nat}
    (hk : k < s.ctx.auxlen.toNat) : decodeByte s.cfg sample k = s.mem.read (s.ctx.aux.toNat + k) := by
  have hholds := holds_of_ready rfl hready hexec
  refine decodeByte_eq_read fun j hj => decodeBit_of_groupWritten hc fun l hl => ?_
  rw [hsample _ (index_lt_NC_of_fits (by omega) hl)]
  exact groupWritten_of_embed hholds hfits (by omega) l hl

/-- An extract of as many bytes as the frame can hold writes the bytes that its stored U samples decode as. -/
theorem read_aux_of_ready {z u : State} (hready : Ready .nv12ToRgba8Extract (.extract z.cfg.extractType) z)
    (hexec : exec .nv12ToRgba8Extract z = .next u) (hfits : z.ctx.auxlen.toNat ≤ capBytes z.cfg z.ctx) {k : Nat}
    (hk : k < z.ctx.auxlen.toNat) :
    u.mem.read (z.ctx.aux.toNat + k) = decodeByte z.cfg (storedU .nv12 z.ctx z.mem z.ctx.src.toNat) k := by
  rw [← extractBytes_of_fits hfits] at hk
  exact read_aux_of_extract (holds_of_ready rfl hready hexec) hk

/-- Two contexts have frames of one size. -/
def Ctx.SameFrame (x y : Ctx) : Prop := x.w = y.w ∧ x.h = y.h

section
variable {x y : Ctx}

theorem Ctx.SameFrame.place_eq (h : x.SameFrame y) (k : Nat) (flip : Bool) : place x k flip = place y k flip := by
  obtain ⟨hw, hh⟩ := h
  simp only [place, Ctx.CW, Ctx.CH, Ctx.W, Ctx.H, hw, hh]

theorem Ctx.SameFrame.capBytes_eq (h : x.SameFrame y) (c : Config) : capBytes c x = capBytes c y := by
  obtain ⟨hw, hh⟩ := h
  simp only [capBytes, capBits, Ctx.NC, Ctx.CW, Ctx.CH, Ctx.W, Ctx.H, hw, hh]

end

/-- An embed and an extract, both ready, with the same parameters, frame size and auxiliary length within capacity. -/
structure Paired (flip : Bool) (s z : State) : Prop where
  wellFormed : s.cfg.wellFormed = true
  cfg_eq : z.cfg = s.cfg
  embedReady : Ready (.rgb8ToI420Embed flip) (.embed s.cfg.embedType flip) s
  extractReady : Ready .nv12ToRgba8Extract (.extract z.cfg.extractType) z
  sameFrame : z.ctx.SameFrame s.ctx
  auxlen_eq : z.ctx.auxlen = s.ctx.auxlen
  fits : s.ctx.auxlen.toNat ≤ capBytes s.cfg s.ctx

/-- The extract visits the blocks row by row, and an embed the same rows, with FLIP in reverse: from a frame with its
rows in that order the extract decodes the samples in the order in which the embed wrote them. -/
theorem Paired.recovers {flip : Bool} {s z t u : State} (h : Paired flip s z)
    (hexecs : exec (.rgb8ToI420Embed flip) s = .next t) (hexecz : exec .nv12ToRgba8Extract z = .next u)
    (hframe : ∀ bX bY, bX < s.ctx.CW → bY < s.ctx.CH → z.mem.read (addrU .nv12 z.ctx z.ctx.src.toNat bX bY) =
      t.mem.read (addrU .i420 s.ctx s.ctx.dst.toNat bX (if flip then s.ctx.CH - 1 - bY else bY)))
    {k : Nat} (hk : k < s.ctx.auxlen.toNat) :
    u.mem.read (z.ctx.aux.toNat + k) = s.mem.read (s.ctx.aux.toNat + k) := by
  have hfits : z.ctx.auxlen.toNat ≤ capBytes z.cfg z.ctx := by
    rw [h.sameFrame.capBytes_eq, h.cfg_eq, h.auxlen_eq]
    exact h.fits
  rw [read_aux_of_ready h.extractReady hexecz hfits (h.auxlen_eq ▸ hk), h.cfg_eq]
  refine decodeByte_of_embed h.wellFormed h.embedReady hexecs h.fits (fun i hi => ?_) hk
  obtain ⟨hx, hy⟩ := place_lt s.ctx false hi
  rw [storedU, h.sameFrame.place_eq]
  exact hframe _ _ hx hy

/-- Settles O52: without flip the rows stand in the embed's own order. -/
theorem dataChannelRoundTrip : Obligations.DataChannelRoundTrip := by
  intro s z t u hc hcfg hs hz hw hh hlen hfits hexecs hexecz hframe k hk
  exact Paired.recovers ⟨hc, hcfg, hs, hz, ⟨hw, hh⟩, hlen, hfits⟩ hexecs hexecz hframe hk

/-- Settles O53: the flipped embed visits the rows in reverse, and the reversed frame has them in that order. -/
theorem flipSymmetry : Obligations.FlipSymmetry := by
  intro s z t u hc hcfg hs hz hw hh hlen hfits hexecs hexecz hframe k hk
  exact Paired.recovers ⟨hc, hcfg, hs, hz, ⟨hw, hh⟩, hlen, hfits⟩ hexecs hexecz hframe hk

/-! ### An embed of no bytes -/

theorem embedBits_of_empty {c : Config} {x : Ctx} (h : x.auxlen = 0) : embedBits c x = 0 := by
  rw [embedBits_of_fits (by simp [h]), h]
  rfl

/-- An embed of no bits makes the plain conversion's writes, block by block in its own order. -/
theorem embedCells_perm_rgbToYuvCells {c : Config} {x : Ctx} (h : embedBits c x = 0) (t : RgbType) (flip : Bool)
    (m : Memory) (free : Nat → Byte) : (embedCells c t flip x m free).Perm (rgbToYuvCells c t .i420 x m free) := by
  have hplain (k : Nat) (natural : Byte) : embeddedU c x m k natural = natural := by
    rw [embeddedU, h, Nat.zero_mul, if_neg (Nat.not_lt_zero k)]
  simp only [embedCells, rgbToYuvCells, hplain]
  refine List.Perm.append_left _ ?_
  have hblocks := (map_place_perm_blocks x flip).flatMap_right fun b =>
    [(addrU .i420 x x.dst.toNat b.1 b.2, (chromaSample c t .i420 x m free b).1),
      (addrV .i420 x x.dst.toNat b.1 b.2, (chromaSample c t .i420 x m free b).2)]
  rwa [List.flatMap_map] at hblocks

/-- Byte writes that both stand, the same ones in two orders, leave the same memory. -/
theorem Memory.writeAll_eq_of_perm {m : Memory} (hm : m.wf = true) {l k : List Host.Cell} (h : l.Perm k)
    (hl : (m.writeAll l).Holds l) (hk : (m.writeAll k).Holds k) : m.writeAll l = m.writeAll k := by
  refine Memory.eq_of_read_eq (Memory.wf_writeAll hm l) (Memory.wf_writeAll hm k) fun a => ?_
  by_cases ha : a ∈ addresses l
  · exact hl.read_eq (fun p hp => hk p (h.mem_iff.1 hp)) ha
  · have hother {cells : List Host.Cell} (hc : cells ⊆ l) : ∀ p ∈ cells, p.1 ≠ a :=
      fun p hp hpa => ha (List.mem_map.2 ⟨p, hc hp, hpa⟩)
    rw [Memory.read_writeAll_other _ _ _ (hother (List.Subset.refl l)),
      Memory.read_writeAll_other _ _ _ (hother h.symm.subset)]

/-- A ready instruction completes with its operation's count. -/
theorem auxCount_of_ready {i : Instr} {op : Operation} {s t : State} (hop : operationOf s.cfg i = op)
    (h : Ready i op s) (hexec : exec i s = .next t) :
    t.auxCount = BitVec.ofNat 32 (operationCount s.cfg op s.ctx) := by
  obtain ⟨u, hu, hdone, -⟩ := exec_of_ready_completed hop h
  cases hexec.symm.trans hu
  rw [hdone]

/-- Settles O54: with no bits to embed the two operations make the same writes. -/
theorem emptyEmbedIsPlainConversion : Obligations.EmptyEmbedIsPlainConversion := by
  intro flip s t u htype hlen hembed hplain hexect hexecu
  have hop : operationOf s.cfg (.rgb8ToI420Embed flip) = .embed .rgb8 flip := by rw [operationOf, htype]
  have hbits : embedBits s.cfg s.ctx = 0 := embedBits_of_empty hlen
  refine ⟨?_, ?_, auxCount_of_ready rfl hplain hexecu⟩
  · have ht := holds_of_ready hop hembed hexect
    have hu := holds_of_ready rfl hplain hexecu
    rw [mem_of_ready hop hembed hexect] at ht ⊢
    rw [mem_of_ready rfl hplain hexecu] at hu ⊢
    obtain ⟨-, -, -, hm⟩ := hplain
    exact Memory.writeAll_eq_of_perm hm (embedCells_perm_rgbToYuvCells hbits ..) ht hu
  · rw [auxCount_of_ready hop hembed hexect, operationCount, hbits]
    rfl

end Sys2Proof.Machine

/-! PROOFS. Status codes, the interrupt and other agents (60_exceptions R302, R304, R305, R310, R319): which code a
completion reports, when the interrupt output is high, and what a store past the host's cache leaves of it. -/

namespace Sys2Proof.Machine

/-! ### The first applicable code -/

theorem code_of_completed {k : StatusCode} {n : Nat} {s t : State} (h : Completed k n s t) : t.code = k := by
  rw [Completed] at h
  rw [h]

/-- Settles O10: the course of an operation has one way to each code, and each way rules out the conditions of the
others. -/
theorem errorPriority : Obligations.ErrorPriority := by
  refine ⟨fun i s t h => ?_, fun s hp hi hnone => ?_⟩
  · rw [exec_eq_runOperation] at h
    rcases runOperation_cases h with ⟨hsup, rfl⟩ | ⟨hsup, harg, rfl⟩ | ⟨hsup, harg, hcap, rfl⟩ |
      ⟨⟨hsup, harg, hcap, -⟩, hfault, rfl⟩ | ⟨⟨hsup, harg, hcap, -⟩, hfault, rfl⟩
    · simp [hsup]
    · simp [hsup, harg]
    · simp [hsup, harg, hcap]
    · simp [hsup, harg, hcap, hfault]
    · simp [hsup, harg, hcap, hfault]
  · obtain ⟨hillegal, -⟩ := illegalWordCompletesUnsupported s hp hi
    obtain ⟨t, hstep, hcompleted, -⟩ := hillegal hnone
    exact ⟨t, hstep, code_of_completed hcompleted⟩

/-! ### The interrupt output -/

theorem irq_of_done {s : State} (h : s.done = true) : irq s = s.irqEn := by
  rw [irq, h, Bool.true_and]

theorem irq_of_not_done {s : State} (h : s.done = false) : irq s = false := by
  rw [irq, h, Bool.false_and]

/-- START from IDLE clears DONE (60_exceptions R305). -/
theorem irq_start_of_idle {s : State} (hp : s.phase = .idle) : irq (start s) = false := by
  rw [start_of_idle s hp]
  exact irq_of_not_done rfl

theorem exec_irqEn {i : Instr} {s t : State} (h : exec i s = .next t) : t.irqEn = s.irqEn := by
  obtain ⟨hframe, -⟩ := execFrame i s t h
  rw [hframe]

/-- Settles O32: DONE is set by a completion and cleared by acknowledge, START and reset; a CTRL write of 0 clears
IRQ_EN alone. -/
theorem interruptRule : Obligations.InterruptRule := by
  refine ⟨fun i s t h => ?_, fun s v hv => ?_, fun s v hp hv => ?_, fun s => ?_,
    fun s => irq_of_not_done (resetCore_done s)⟩
  · obtain ⟨-, hdone, -⟩ := exec_completes h
    exact (irq_of_done hdone).trans (exec_irqEn h)
  · rw [writeReg_status_of_set hv]
    exact irq_of_not_done rfl
  · rw [writeReg_ctrl_of_start hv]
    exact irq_start_of_idle (s := { s with irqEn := v.getLsbD 1 }) hp
  · rw [writeReg_ctrl_of_no_start (v := 0) rfl]
    exact ⟨Bool.and_false s.done, rfl⟩

/-! ### A store by an agent that the host's cache does not serve -/

/-- A store reaches no register (log 26). -/
theorem readReg_performStore (b : Nat) (v : Byte) (s : State) (r : Reg) :
    readReg (performStore b v s) r = readReg s r := by
  cases r <;> rfl

section
variable {s : State} {a : Addr} {rest : List Input}

theorem step_agentStore_byte {v : Byte} (hi : s.inputs = .agentStore a [v] :: rest) (ha : a.toNat < 2 ^ s.cfg.addrW) :
    step s = .next (performStore a.toNat v { s with inputs := rest }) :=
  (step_of_input hi).trans (storeByAgent_inSpace (s := { s with inputs := rest }) ha)

/-- A host load while IDLE returns the copy the host holds (70_reset_and_hazards R345). -/
theorem step_load_of_cached {l : CacheLine} (hi : s.inputs = .load a :: rest) (ha : a.toNat < 2 ^ s.cfg.addrW)
    (hp : s.phase = .idle) (hc : s.cfg.coherent = false) (hl : cachedLine s.hostCache a.toNat = some l) :
    ∃ u, step s = .next u ∧ u.hdata = l.byte := by
  refine ⟨_, (step_of_input hi).trans (load_inSpace ha), ?_⟩
  exact (observedByte_of_not_writing (s := { s with inputs := rest }) (.inl hp)).trans (hostByte_of_cached hc hl)

theorem loadByAgent_inSpace (h : a.toNat < 2 ^ s.cfg.addrW) : loadByAgent a s = .next (agentLoad a.toNat s) :=
  if_pos (decide_eq_true h)

theorem observed_of_idle (hp : s.phase = .idle) (b : Nat) (found : Byte) : observed s b found = found := by
  simp [observed, busyRegions, hp, inRegions]

/-- A load past the host's cache while IDLE returns the byte in memory (20_memory R90). -/
theorem step_agentLoad_of_idle (hi : s.inputs = .agentLoad a :: rest) (ha : a.toNat < 2 ^ s.cfg.addrW)
    (hp : s.phase = .idle) : ∃ u, step s = .next u ∧ u.hdata = s.mem.read a.toNat :=
  ⟨_, (step_of_input hi).trans (loadByAgent_inSpace ha), observed_of_idle (s := { s with inputs := rest }) hp ..⟩

end

/-- Settles O57: the store writes memory and the model's record of stores alone, so a load by the host still finds the
copy, and the agent's the stored byte. -/
theorem agentStoreLeavesHostCopy : Obligations.AgentStoreLeavesHostCopy := by
  intro s a v rest hm ha hi
  have hread : (s.mem.write a.toNat v).read a.toNat = v := Memory.read_write_same hm ..
  refine ⟨_, step_agentStore_byte hi ha, rfl, hread, rfl, rfl,
    fun r => readReg_performStore a.toNat v { s with inputs := rest } r, fun l rest' hp hc hl hload => ?_,
    fun rest' hp hload => ?_⟩
  · exact step_load_of_cached (s := performStore a.toNat v { s with inputs := rest }) hload ha hp hc hl
  · obtain ⟨u, hstep, hdata⟩ :=
      step_agentLoad_of_idle (s := performStore a.toNat v { s with inputs := rest }) hload ha hp
    exact ⟨u, hstep, hdata.trans hread⟩

end Sys2Proof.Machine

/-! PROOFS. Reset and the host's cache (70_reset_and_hazards R330, R331, R345): what a reset leaves in the registers and
in memory, and how a store held in a cache that is not coherent reaches memory. -/

namespace Sys2Proof.Machine

/-! ### Reset -/

/-- The registers after a reset are those of the reset state, whatever memory holds (10_state R45). -/
theorem readReg_resetCore (s : State) (r : Reg) : readReg (resetCore s) r = 0 := by
  have hsame : readReg (resetCore s) r = readReg (State.resetWith s.cfg) r := by cases r <;> rfl
  rw [hsame, readReg_resetWith]

/-- Freeing some regions leaves the free value at each of their bytes and every other byte as before. -/
theorem read_writeAll_freeCells {m : Memory} (hm : m.wf = true) (free : Nat → Byte) (rs : List Region) (a : Nat) :
    (m.writeAll (freeCells free rs)).read a = if inRegions rs a = true then free a else m.read a := by
  split
  next hin =>
    exact read_writeAll_free hm (fun _ hp => (mem_freeCells.1 hp).2)
      (List.mem_map.2 ⟨(a, free a), mem_freeCells.2 ⟨hin, rfl⟩, rfl⟩)
  next hout => exact Memory.read_writeAll_other _ _ _ fun p hp hpa => hout (hpa ▸ (mem_freeCells.1 hp).1)

section
variable {s : State}

theorem busyRegions_of_idle (hp : s.phase = .idle) : busyRegions s = [] := by simp [busyRegions, hp]

theorem busyRegions_of_busy (hp : s.phase = .busy) : busyRegions s = contextRegions s.ctx := by simp [busyRegions, hp]

/-- A reset of an idle core abandons nothing (70_reset_and_hazards R330). -/
theorem resetCore_mem_of_idle (hp : s.phase = .idle) : (resetCore s).mem = s.mem := by
  rw [resetCore_mem, busyRegions_of_idle hp]
  rfl

/-- The abandoned operation's regions hold any value inside the memory space (70_reset_and_hazards R331). -/
theorem read_resetCore_of_busy (hm : s.mem.wf = true) (hp : s.phase = .busy) (a : Nat) :
    (resetCore s).mem.read a =
      if inRegions (contextRegions s.ctx) a = true ∧ a < 2 ^ s.cfg.addrW
      then Config.freeByte s.draws a else s.mem.read a := by
  rw [resetCore_mem, read_writeAll_freeCells hm, busyRegions_of_busy hp]
  simp only [inRegions_map_clampRegion, Bool.and_eq_true, decide_eq_true_eq]

end

/-- Settles O34: the registers are the reset state's, and memory is freed in the regions of the context, which for a
word that names an operation are that operation's. -/
theorem resetInput : Obligations.ResetInput := by
  intro s rest hi hm
  have hfreed := read_resetCore_of_busy (s := { s with inputs := rest }) hm
  refine ⟨resetCore { s with inputs := rest }, step_of_input hi, readReg_resetCore _, rfl, irq_of_not_done rfl, rfl,
    resetCore_mem_of_idle (s := { s with inputs := rest }), fun i hp hd => ?_, fun e hp _ => hfreed hp⟩
  rw [← contextRegions_of_decode hd]
  exact hfreed hp

/-! ### A store held in the host's cache, and its write back -/

/-- Without coherence a store by the host stays in its cache (70_reset_and_hazards R345). -/
theorem step_store_of_not_coherent {s : State} {a : Addr} {v : Byte} {rest : List Input}
    (hc : s.cfg.coherent = false) (ha : a.toNat < 2 ^ s.cfg.addrW) (hi : s.inputs = .store a [v] :: rest) :
    step s = .next { recordStore a.toNat { s with inputs := rest } with
      hostCache := putLine s.hostCache { addr := a.toNat, byte := v, dirty := true } } := by
  have hstep : step s = .next (hostStoreByte a.toNat v { s with inputs := rest }) :=
    (step_of_input hi).trans (store_inSpace (s := { s with inputs := rest }) ha)
  rcases hostStoreByte_cases a.toNat v { s with inputs := rest } with ⟨hcoherent, -⟩ | ⟨-, hstore⟩
  · cases hcoherent.symm.trans hc
  · rw [hstep, hstore]

/-- The write back performs the selected lines' stores in memory, in the cache's order. -/
theorem performLines_mem (lines : List CacheLine) (s : State) :
    (performLines lines s).mem = s.mem.writeAll (lines.map fun l => (l.addr, l.byte)) := by
  induction lines generalizing s with
  | nil => rfl
  | cons l rest ih => exact ih (performStore l.addr l.byte s)

theorem writeBackRegion_mem (r : Region) (s : State) :
    (writeBackRegion r s).mem =
      s.mem.writeAll ((s.hostCache.filter (toWriteBack r)).map fun l => (l.addr, l.byte)) :=
  performLines_mem _ s

theorem writeBackRegion_inputs (r : Region) (s : State) : (writeBackRegion r s).inputs = s.inputs := by
  obtain ⟨m, touched, hframe⟩ := performLines_frame (s.hostCache.filter (toWriteBack r)) s
  rw [writeBackRegion, hframe]

/-- Where no other address of the region has an unwritten store, the newest store is the only line a write back
performs: it has replaced every older line of its own address. -/
theorem filter_toWriteBack_putLine {r : Region} {cache : List CacheLine} {l : CacheLine}
    (hl : toWriteBack r l = true)
    (hsole : ∀ k ∈ cache, k.dirty = true → inRegion r k.addr = true → k.addr = l.addr) :
    (putLine cache l).filter (toWriteBack r) = [l] := by
  have hnone : (cache.filter fun k => k.addr ≠ l.addr).filter (toWriteBack r) = [] := by
    refine List.filter_eq_nil_iff.2 fun k hk hback => ?_
    obtain ⟨hmem, hne⟩ := List.mem_filter.1 hk
    obtain ⟨hdirty, hin⟩ := Bool.and_eq_true_iff.1 hback
    exact of_decide_eq_true hne (hsole k hmem hdirty hin)
  rw [putLine, List.filter_cons_of_pos hl, hnone]

/-- Settles O36: the stored line is the one line of the region that the write back performs. -/
theorem cachedStoreNeedsWriteBack : Obligations.CachedStoreNeedsWriteBack := by
  intro s a v r rest hc ha hr hsole hi
  have hline : toWriteBack r { addr := a.toNat, byte := v, dirty := true } = true := hr
  refine ⟨_, _, step_store_of_not_coherent hc ha hi, rfl, step_of_input (e := .writeBack r) (rest := rest) rfl, ?_,
    writeBackRegion_inputs r _⟩
  rw [writeBackRegion_mem, filter_toWriteBack_putLine hline hsole]
  rfl

end Sys2Proof.Machine
